-- ==== Sys2Proof/Word.lean ====
section
/-! DEFINITION. The word types of PM-VTXTEX (spec/00_scope.md R7 to R10, spec/20_memory.md R60, R62). -/

namespace Sys2Proof

/-- A byte of memory, and an 8-bit colour channel. -/
abbrev Byte := BitVec 8

/-- A 16-bit half: a texel unit, a palette entry, a half of a wire matrix or of a source vertex. -/
abbrev Half := BitVec 16

/-- One of the two words of a command (R8, R90). -/
abbrev Word := BitVec 32

/-- A logical address embedded in a command (R60). -/
abbrev Addr := BitVec 32

/-- The float format `F`: the 32 bits of an IEEE 754 binary32 value (R7, R10). -/
abbrev F32 := BitVec 32

/-! A location, "a position in byte memory" with no width and no upper end (R62), is a plain `Nat`. -/

/-- A texture handle: an opaque value chosen by the Rasterizer Adapter (R51). -/
abbrev Handle := Nat

end Sys2Proof
end

