-- ==== Sys2Proof/Config.lean ====
section
/-! DEFINITION. The implementation parameters of spec/00_scope.md R7 as named constants, the inputs of a pass that
spec/10_state.md R55 says the model quantifies over, and the free values (opaque constants: nothing proves a value of
one). -/

namespace Sys2Proof.Config

/-- `N_TILES` (R7). -/
abbrev nTiles : Nat := 8

/-- `VC_SIZE` (R7, R24). -/
abbrev vcSize : Nat := 64

/-- `TLUT_SIZE` (R7, R35). -/
abbrev tlutSize : Nat := 256

/-- `MAX_DEPTH` (R7): a list at a greater depth is never entered. -/
def maxDepth : Nat := 32

/-- `TOP_DEPTH` (R7): the depth of the host's top-level call. -/
def topDepth : Nat := 0

/-- `HALF_W = 160.0` (R7, R263). -/
def halfW : F32 := 0x43200000#32

/-- `HALF_H = 120.0` (R7, R263). -/
def halfH : F32 := 0x42F00000#32

/-- `FILL_DEPTH_SENTINEL` (R7, R232). -/
def fillDepthSentinel : Word := 0xFFFCFFFC#32

/-- `TSCALE_FULL` (R7, R23). -/
def tscaleFull : Half := 0xFFFF#16

/-- `DIAG_COLOR`, opaque magenta (R7, R210): red, green, blue, alpha. -/
def diagColor : Byte × Byte × Byte × Byte := (255#8, 0#8, 255#8, 255#8)

/-- DESIGN CHOICE (notes/assumptions/1.md), unsafe to rest a statement on. Where `State.withFetchWord` places a
list when none is active: the base address the examples of spec/95_test_vectors.md use (R305 fixes none). -/
def loadBase : Nat := 0x1000

end Sys2Proof.Config

namespace Sys2Proof

/-- The two OPEN parameters of R7. The spec fixes no value; they are held in State, so that every statement over all
states holds for every value of them (notes/assumptions/4.md). -/
structure Params where
  /-- `ITER_CAP`, a positive integer (R122). -/
  iterCap : Nat
  /-- `W_EPSILON`, a positive finite binary32 value (R262). -/
  wEpsilon : F32
deriving DecidableEq, Repr

/-- One piece of the platform's Address Resolver (R60): the logical addresses `base` to `base + size - 1` are the
locations `loc` to `loc + size - 1` (notes/assumptions/5.md). -/
structure Region where
  base : Nat
  size : Nat
  loc : Nat
deriving DecidableEq, Repr

/-- The registers that the frame reset leaves unspecified (R302), element by element. -/
inductive OpenReg where
  | vcX (i : Nat) | vcY (i : Nat) | vcZ (i : Nat) | vcW (i : Nat) | vcU (i : Nat) | vcV (i : Nat)
  | vcC (i ch : Nat)
  | timgAddr | timgFmt | timgSiz | timgStride
  | tlut (k : Nat)
  | prim (ch : Nat) | env (ch : Nat) | fill
deriving DecidableEq, Repr

/-- The four float operations that can produce a NaN (R10, R153). -/
inductive FloatOp where
  | add | sub | mul | div
deriving DecidableEq, Repr

end Sys2Proof

namespace Sys2Proof.Config

/-- FREE VALUE (R302; notes/assumptions/3.md), safe. What an element the reset list does not name holds after the
frame reset number `pass`: an arbitrary value, cut to the element's width where it is used. -/
opaque unspecified (pass : Nat) (r : OpenReg) : BitVec 32

/-- FREE VALUE (R153; notes/assumptions/8.md). The bits a NaN result of `op` on two operands is made from. -/
opaque nanBits (op : FloatOp) (a b : F32) : BitVec 32

/-- FREE VALUE (R62, V7; notes/assumptions/6.md), safe. What the platform has at a location the memory list does not
name. -/
opaque freeByte (loc : Nat) : Byte

/-- FREE VALUE (R51; notes/assumptions/7.md), safe. The handle the adapter draws for the `k`-th texture when the
state's list of answers has run out. -/
opaque adapterAnswer (k : Nat) : Handle

end Sys2Proof.Config
end

