-- ==== Sys2Proof/Machine/State.lean ====
section
/-! DEFINITION. The state of PM-VTXTEX as plain data (spec/10_state.md), the reasons a step could stop, and the state
right after reset (spec/70_reset_and_hazards.md R303). -/

namespace Sys2Proof.Machine

/-- A matrix in working format: row-major 4×4 float, `M[i][j]` row `i`, column `j` (R20). -/
abbrev Mat := Vector (Vector F32 4) 4

/-- The identity matrix: 1.0 on the diagonal, +0.0 elsewhere (R22). -/
def identity : Mat :=
  #v[#v[0x3F800000#32, 0#32, 0#32, 0#32], #v[0#32, 0x3F800000#32, 0#32, 0#32],
     #v[0#32, 0#32, 0x3F800000#32, 0#32], #v[0#32, 0#32, 0#32, 0x3F800000#32]]

/-- Four 8-bit channels: of a vertex, a decoded texel, `PRIM` or `ENV` (R27, R36, R211). -/
structure Rgba where
  r : Byte
  g : Byte
  b : Byte
  a : Byte
deriving DecidableEq, Repr

/-- An entry of the vertex cache (R27): clip-space position, texture coordinates, colour or normal bytes. -/
structure VtxEntry where
  x : F32
  y : F32
  z : F32
  w : F32
  u : F32
  v : F32
  c : Rgba
deriving DecidableEq, Repr

/-- A tile descriptor (R30). -/
structure Tile where
  fmt : BitVec 3
  siz : BitVec 2
  line : BitVec 9
  tmem : BitVec 9
  palette : BitVec 4
  cmt : BitVec 2
  cms : BitVec 2
  maskt : BitVec 4
  masks : BitVec 4
  shiftt : BitVec 4
  shifts : BitVec 4
  uls : BitVec 12
  ult : BitVec 12
  lrs : BitVec 12
  lrt : BitVec 12
  /-- The resolved source address. -/
  src : Option Nat
  width : Int
  height : Int
  /-- The realized texture's handle. -/
  tex : Option Handle
deriving DecidableEq, Repr

/-- A zeroed descriptor (R33, R300). -/
def Tile.zero : Tile where
  fmt := 0#3
  siz := 0#2
  line := 0#9
  tmem := 0#9
  palette := 0#4
  cmt := 0#2
  cms := 0#2
  maskt := 0#4
  masks := 0#4
  shiftt := 0#4
  shifts := 0#4
  uls := 0#12
  ult := 0#12
  lrs := 0#12
  lrt := 0#12
  src := none
  width := 0
  height := 0
  tex := none

/-- The current source image registers `TIMG` (R34); `stride` is 1 to 4096 in 13 bits. -/
structure Timg where
  addr : Addr
  fmt : BitVec 3
  siz : BitVec 2
  stride : BitVec 13
deriving DecidableEq, Repr

/-- A frame of the walker's `STACK` (R44). -/
structure Frame where
  /-- The location of the list's first command. -/
  base : Nat
  /-- The index of the next stream entry to fetch. -/
  cursor : Nat
  /-- True when this list must end as soon as the list above it returns. -/
  tail : Bool
deriving DecidableEq, Repr

/-- A vertex as a draw call carries it (R52). -/
structure ScreenVertex where
  x : F32
  y : F32
  z : F32
  u : F32
  v : F32
  c : Rgba
deriving DecidableEq, Repr

/-- An event of the output trace: one call of the Rasterizer Adapter (R50 to R54). -/
inductive Event where
  /-- `create_or_replace_texture(rgba_buffer, width, height) -> handle` (R51). -/
  | createTexture (rgba : List Byte) (width height : Int) (handle : Handle)
  /-- `release_texture(handle)` (R54). -/
  | releaseTexture (handle : Handle)
  /-- `draw_triangle(tex, v0, v1, v2)` (R52). -/
  | drawTriangle (tex : Option Handle) (v0 v1 v2 : ScreenVertex)
  /-- `draw_quad(tex, v0, v1, v2, v3)` (R52). -/
  | drawQuad (tex : Option Handle) (v0 v1 v2 v3 : ScreenVertex)
  /-- `set_depth_test(enabled)` (R53). -/
  | setDepthTest (enabled : Bool)
deriving DecidableEq, Repr

/-- Byte memory as the platform laid it out (R62, R75): the bytes the platform placed, by location, in one canonical
form. What a location not listed reads as is `Config.freeByte` (notes/assumptions/6.md). -/
abbrev Memory := List Host.Cell

/-- What the host hands over for one pass (R55, R77, R293): the logical address of the top-level list, and the
resolver and the memory content the pass runs over, constant from its start to DONE (R75). -/
structure PassRequest where
  top : Addr
  resolver : List Region
  mem : Memory
deriving DecidableEq, Repr

/-- The state of the block, with the inputs of a pass that the model quantifies over (R55). -/
structure State where
  /-- `MV`, the modelview matrix (R20). -/
  mv : Mat
  /-- `PJ`, the projection matrix (R20). -/
  pj : Mat
  /-- `MVP`, their cached product (R20, R21). -/
  mvp : Mat
  /-- `TSCALE_S` (R23). -/
  tscaleS : BitVec 16
  /-- `TSCALE_T` (R23). -/
  tscaleT : BitVec 16
  /-- `VC[0..63]`, the vertex cache (R24 to R27). -/
  vc : Vector VtxEntry Config.vcSize
  /-- `TILE[0..7]`, the tile descriptors (R30). -/
  tile : Vector Tile Config.nTiles
  /-- `TIMG`, the current source image registers (R34). -/
  timg : Timg
  /-- `TLUT[0..255]`, the palette (R35). -/
  tlut : Vector (BitVec 16) Config.tlutSize
  /-- `PRIM`, the primitive colour (R36). -/
  prim : Rgba
  /-- `ENV`, the environment colour (R36). -/
  env : Rgba
  /-- `FILL`, the fill register (R36). -/
  fill : BitVec 32
  /-- `CONT0`, the first continuation register (R37). -/
  cont0 : BitVec 32
  /-- `CONT1`, the second continuation register (R37). -/
  cont1 : BitVec 32
  /-- `LEGACY_TEX`, the legacy single-texture register (R38). -/
  legacyTex : Option Handle
  /-- `STACK`, the nest of active lists, the list being interpreted first (R44). -/
  stack : List Frame
  /-- `OUT`, the output trace, oldest event first (R50). -/
  out : List Event
  /-- The open parameters (R7). Constant. -/
  params : Params
  /-- The Address Resolver's map (R60). Constant during a pass (R75). -/
  resolver : List Region
  /-- Byte memory (R62). Constant during a pass (R75). -/
  mem : Memory
  /-- The adapter's coming answers to `create_or_replace_texture` (R51, R55). -/
  answers : List Handle
  /-- The model's own: how many textures were created, the index of the free handles. -/
  draws : Nat
  /-- What the host will hand over for each coming pass, the next first (R293). -/
  requests : List PassRequest
  /-- The model's own: how many frame resets were done, the index of the unspecified reset values (R302). -/
  frames : Nat
deriving DecidableEq, Repr

/-- Why the machine would stop with a fault. It has no constructor: "The block raises no exception, trap or fault,
under any input" (R280), so no step can answer with one. -/
inductive Fault
deriving DecidableEq, Repr

/-- Why the machine refuses an instruction. -/
inductive Refusal where
  /-- Raised by no arm of `exec`: every instruction has its meaning. Safe. -/
  | notModelled (mnemonic : String)
deriving DecidableEq, Repr

/-- The walker's state `RUN`: RUNNING when `STACK` is non-empty and DONE when it is empty (R44, R136). -/
inductive RunState where
  | running
  | done
deriving DecidableEq, Repr

/-- `RUN`, read off `STACK` (R44). -/
def State.run (s : State) : RunState :=
  match s.stack with
  | [] => .done
  | _ :: _ => .running

/-- A vertex cache entry of zeros: the model's reset value for `VC[i]` (notes/assumptions/2.md). -/
def VtxEntry.zero : VtxEntry := ⟨0#32, 0#32, 0#32, 0#32, 0#32, 0#32, ⟨0#8, 0#8, 0#8, 0#8⟩⟩

/-- The machine right after the frame reset (R303), between passes: `STACK` is empty and no list is handed over yet.
The registers R302 leaves unspecified hold zero (`TIMG.stride`, whose range is 1 to 4096, holds 1), DESIGN CHOICE
(notes/assumptions/2.md). The open parameters and the resolver are those of the conventions of
spec/95_test_vectors.md, DESIGN CHOICE (notes/assumptions/4.md, 5.md): no statement rests on them. -/
def State.reset : State where
  mv := identity
  pj := identity
  mvp := identity
  tscaleS := Config.tscaleFull
  tscaleT := Config.tscaleFull
  vc := Vector.replicate Config.vcSize VtxEntry.zero
  tile := Vector.replicate Config.nTiles Tile.zero
  timg := ⟨0#32, 0#3, 0#2, 1#13⟩
  tlut := Vector.replicate Config.tlutSize 0#16
  prim := ⟨0#8, 0#8, 0#8, 0#8⟩
  env := ⟨0#8, 0#8, 0#8, 0#8⟩
  fill := 0#32
  cont0 := 0#32
  cont1 := 0#32
  legacyTex := none
  stack := []
  out := []
  params := ⟨1000, 0x35800000#32⟩
  resolver := [⟨0, 2 ^ 32, 0⟩]
  mem := []
  answers := []
  draws := 0
  requests := []
  frames := 0

end Sys2Proof.Machine
end

