-- ==== Sys2Proof/Machine/Float.lean ====
section
/-! DEFINITION. The float format `F`: IEEE 754 binary32, round to nearest even, every operation rounded once
(spec/00_scope.md R7, R10; spec/41_transform_vertex.md R153). A finite value is read as an integer number of units of
2^-149, the exact result of an operation is a fraction of integers, and ONE function rounds a fraction. What IEEE 754
itself says and the spec does not repeat (the sign of a zero sum, the invalid operations) is PRESUMED
(notes/assumptions/10.md). -/

namespace Sys2Proof.Machine

/-- The sign bit. -/
def fsign (a : F32) : Bool := a.msb

/-- The 31 bits below the sign: exponent field and fraction. -/
def fmagBits (a : F32) : Nat := a.toNat % 2 ^ 31

/-- NaN: exponent field 255 and a fraction other than 0. -/
def fisNaN (a : F32) : Bool := decide (0x7F800000 < fmagBits a)

/-- An infinity: exponent field 255 and fraction 0. -/
def fisInf (a : F32) : Bool := decide (fmagBits a = 0x7F800000)

/-- A finite value: exponent field below 255. -/
def fisFinite (a : F32) : Bool := decide (fmagBits a < 0x7F800000)

/-- A zero of either sign. -/
def fisZero (a : F32) : Bool := decide (fmagBits a = 0)

/-- The magnitude of a finite value in units of 2^-149, exactly: a subnormal is its fraction, a normal value of
exponent field `e` is (fraction + 2^23) · 2^(e-1). -/
def fmag (a : F32) : Nat :=
  let e := fmagBits a / 2 ^ 23
  let f := fmagBits a % 2 ^ 23
  if e = 0 then f else (f + 2 ^ 23) * 2 ^ (e - 1)

/-- A finite value in units of 2^-149, with its sign. -/
def fval (a : F32) : Int := if fsign a then -(fmag a : Int) else fmag a

/-- A value from its sign and the 31 bits below it. -/
def fpack (neg : Bool) (magBits : Nat) : F32 :=
  BitVec.ofNat 32 (magBits + if neg then 2 ^ 31 else 0)

/-- The integer nearest to `num / den`, ties to even. -/
def nearestEven (num den : Nat) : Nat :=
  let q := num / den
  let r := num % den
  if 2 * r < den then q else if den < 2 * r then q + 1 else q + q % 2

/-- The binary32 value nearest to `num / den`, ties to even, with the given sign (R10): subnormals are kept, and a
result at or above the overflow threshold is an infinity. The mantissa keeps 24 bits: `e` is how many units' bits are
dropped, and adding `e` to the exponent field also carries a mantissa that rounds up to 2^24. -/
def roundRatio (neg : Bool) (num den : Nat) : F32 :=
  let t := num * 2 ^ 149
  let e := Nat.log2 (t / den) - 23
  let m := nearestEven t (den * 2 ^ e)
  fpack neg (min (m + e * 2 ^ 23) 0x7F800000)

/-- An infinity. -/
def finf (neg : Bool) : F32 := fpack neg 0x7F800000

/-- A zero. -/
def fzero (neg : Bool) : F32 := fpack neg 0

/-- A NaN result: any NaN (R153), made from the free bits `Config.nanBits` (notes/assumptions/8.md). Every NaN is
`fnan` of some bits. -/
def fnan (op : FloatOp) (a b : F32) : F32 :=
  let x := Config.nanBits op a b
  if fisNaN x then x else x ||| 0x7F800001#32

/-- Negation: the sign bit turned over. -/
def fneg (a : F32) : F32 := a ^^^ 0x80000000#32

/-- `fabs(a)` clears the sign (R10). -/
def fabs (a : F32) : F32 := a &&& 0x7FFFFFFF#32

/-- The sum, `op` naming the operation a NaN result belongs to. An exact zero sum is +0.0 unless both operands are
negative zeros. -/
def faddAs (op : FloatOp) (a b a' b' : F32) : F32 :=
  if fisNaN a || fisNaN b then fnan op a' b'
  else if fisInf a then (if fisInf b && fsign a != fsign b then fnan op a' b' else a)
  else if fisInf b then b
  else
    let x := fval a + fval b
    if x = 0 then fzero (fsign a && fsign b) else roundRatio (decide (x < 0)) x.natAbs (2 ^ 149)

/-- `fadd(a, b)` (R10). -/
def fadd (a b : F32) : F32 := faddAs .add a b a b

/-- `fsub(a, b)` (R10): the sum with the second operand negated. -/
def fsub (a b : F32) : F32 := faddAs .sub a (fneg b) a b

/-- `fmul(a, b)` (R10). -/
def fmul (a b : F32) : F32 :=
  let neg := fsign a != fsign b
  if fisNaN a || fisNaN b then fnan .mul a b
  else if fisInf a || fisInf b then (if fisZero a || fisZero b then fnan .mul a b else finf neg)
  else roundRatio neg (fmag a * fmag b) (2 ^ 298)

/-- `fdiv(a, b)` (R10). -/
def fdiv (a b : F32) : F32 :=
  let neg := fsign a != fsign b
  if fisNaN a || fisNaN b then fnan .div a b
  else if fisInf a then (if fisInf b then fnan .div a b else finf neg)
  else if fisInf b then fzero neg
  else if fisZero b then (if fisZero a then fnan .div a b else finf neg)
  else roundRatio neg (fmag a) (fmag b)

/-- `i2f(n)`: an integer converted to `F`, rounded to nearest even, exact for |n| ≤ 2^24 (R10). -/
def i2f (n : Int) : F32 := roundRatio (decide (n < 0)) n.natAbs 1

end Sys2Proof.Machine
end

