-- ==== Sys2Proof/Syntax.lean ====
section
/-! DEFINITION. The 29 commands of spec/opcode_table.json as one inductive, and their opcodes' names
(spec/30_encoding.md R96 to R109). An operand has exactly the width its field has in the encoding. Fields the
table names and the semantics ignore (`P` of MTX, the coordinates of LOADTILE) are operands all the same. -/

namespace Sys2Proof

/-- The 29 assigned opcodes by name (R96). Their numbers are `Opcode.code` in Sys2Proof/Decode.lean. -/
inductive Opcode where
  | noop | vtx | tri1 | tri2 | quad | texture | popmtx | mtx | dl | endList | spnoop | rdphalf1
  | texrect | texrectm | loadsync | pipesync | tilesync | fullsync | loadtlut | rdphalf2
  | settilesize | loadblock | loadtile | settile | fillrect | setfillcolor | setprimcolor
  | setenvcolor | settimg
deriving DecidableEq, Repr

/-- A decoded command (R96). -/
inductive Instr where
  /-- NOOP (0x00, R130). -/
  | noop
  /-- VTX (0x01, R99): count `n`, end index `e`, address of the first source vertex. -/
  | vtx (n : BitVec 8) (e : BitVec 7) (addr : Addr)
  /-- TRI1 (0x05, R109): three byte-offsets, each twice a cache index. -/
  | tri1 (i0 i1 i2 : BitVec 8)
  /-- TRI2 (0x06, R109): two triangles. -/
  | tri2 (i0 i1 i2 i3 i4 i5 : BitVec 8)
  /-- QUAD (0x07, R109): two triangles. -/
  | quad (i0 i1 i2 i3 i4 i5 : BitVec 8)
  /-- TEXTURE (0xD7, R100): the two texture scales. -/
  | texture (scS scT : BitVec 16)
  /-- POPMTX (0xD8, R98). -/
  | popmtx
  /-- MTX (0xDA, R97): target `j`, mode `l`, push `p` (ignored), address of a wire matrix. -/
  | mtx (j l p : BitVec 1) (addr : Addr)
  /-- DL (0xDE, R101): flag `j` (1 jump, 0 call), address of the sub-list. -/
  | dl (j : BitVec 1) (addr : Addr)
  /-- END (0xDF, R123). -/
  | endList
  /-- SPNOOP (0xE0, R131). -/
  | spnoop
  /-- RDPHALF1 (0xE1, R109): a continuation tag met as a command. -/
  | rdphalf1 (data : BitVec 32)
  /-- TEXRECT (0xE4, R108), first entry: lower-right and upper-left bounds in 10.2, tile. -/
  | texrect (lrx lry : BitVec 12) (tile : BitVec 3) (ulx uly : BitVec 12)
  /-- TEXRECTM (0xE5, R108), first entry: operands as TEXRECT. -/
  | texrectm (lrx lry : BitVec 12) (tile : BitVec 3) (ulx uly : BitVec 12)
  /-- LOADSYNC (0xE6, R132). -/
  | loadsync
  /-- PIPESYNC (0xE7, R133). -/
  | pipesync
  /-- TILESYNC (0xE8, R134). -/
  | tilesync
  /-- FULLSYNC (0xE9, R135). -/
  | fullsync
  /-- LOADTLUT (0xF0, R106): `tile` (ignored), entry count minus 1. -/
  | loadtlut (tile : BitVec 3) (cnt : BitVec 10)
  /-- RDPHALF2 (0xF1, R109): a continuation tag met as a command. -/
  | rdphalf2 (data : BitVec 32)
  /-- SETTILESIZE (0xF2, R104): region bounds in 10.2, tile. -/
  | settilesize (uls ult : BitVec 12) (tile : BitVec 3) (lrs lrt : BitVec 12)
  /-- LOADBLOCK (0xF3, R105): only `tile` is read. -/
  | loadblock (uls ult : BitVec 12) (tile : BitVec 3) (lrs dxt : BitVec 12)
  /-- LOADTILE (0xF4, R105): only `tile` is read. -/
  | loadtile (uls ult : BitVec 12) (tile : BitVec 3) (lrs lrt : BitVec 12)
  /-- SETTILE (0xF5, R103). -/
  | settile (fmt : BitVec 3) (siz : BitVec 2) (line tmem : BitVec 9) (tile : BitVec 3) (palette : BitVec 4)
      (cmt : BitVec 2) (maskt shiftt : BitVec 4) (cms : BitVec 2) (masks shifts : BitVec 4)
  /-- FILLRECT (0xF6, R107): lower-right and upper-left bounds in 10.2. -/
  | fillrect (lrx lry ulx uly : BitVec 12)
  /-- SETFILLCOLOR (0xF7, R109). -/
  | setfillcolor (fill : BitVec 32)
  /-- SETPRIMCOLOR (0xFA, R109). -/
  | setprimcolor (r g b a : BitVec 8)
  /-- SETENVCOLOR (0xFB, R109). -/
  | setenvcolor (r g b a : BitVec 8)
  /-- SETTIMG (0xFD, R102): format, size, image width minus 1, address. -/
  | settimg (fmt : BitVec 3) (siz : BitVec 2) (wm1 : BitVec 12) (addr : Addr)
deriving DecidableEq, Repr

/-- Which of the 29 opcodes a command carries (R91). -/
def Instr.opcode : Instr → Opcode
  | .noop => .noop
  | .vtx .. => .vtx
  | .tri1 .. => .tri1
  | .tri2 .. => .tri2
  | .quad .. => .quad
  | .texture .. => .texture
  | .popmtx => .popmtx
  | .mtx .. => .mtx
  | .dl .. => .dl
  | .endList => .endList
  | .spnoop => .spnoop
  | .rdphalf1 .. => .rdphalf1
  | .texrect .. => .texrect
  | .texrectm .. => .texrectm
  | .loadsync => .loadsync
  | .pipesync => .pipesync
  | .tilesync => .tilesync
  | .fullsync => .fullsync
  | .loadtlut .. => .loadtlut
  | .rdphalf2 .. => .rdphalf2
  | .settilesize .. => .settilesize
  | .loadblock .. => .loadblock
  | .loadtile .. => .loadtile
  | .settile .. => .settile
  | .fillrect .. => .fillrect
  | .setfillcolor .. => .setfillcolor
  | .setprimcolor .. => .setprimcolor
  | .setenvcolor .. => .setenvcolor
  | .settimg .. => .settimg

end Sys2Proof
end

