-- ==== Sys2Proof/Decode.lean ====
section
/-! DEFINITION. The opcode map, the decoder, the encoder and the assembler's pseudo-instructions
(spec/30_encoding.md). Decoding looks at the opcode byte alone to tell which command an entry is (R91); an entry
whose opcode is unassigned is rejected by name here, and the walker's step then ignores it (R110, R128). -/

namespace Sys2Proof

/-- The opcode map of R96: the one table of numbers. -/
def Opcode.code : Opcode → BitVec 8
  | .noop => 0x00#8
  | .vtx => 0x01#8
  | .tri1 => 0x05#8
  | .tri2 => 0x06#8
  | .quad => 0x07#8
  | .texture => 0xD7#8
  | .popmtx => 0xD8#8
  | .mtx => 0xDA#8
  | .dl => 0xDE#8
  | .endList => 0xDF#8
  | .spnoop => 0xE0#8
  | .rdphalf1 => 0xE1#8
  | .texrect => 0xE4#8
  | .texrectm => 0xE5#8
  | .loadsync => 0xE6#8
  | .pipesync => 0xE7#8
  | .tilesync => 0xE8#8
  | .fullsync => 0xE9#8
  | .loadtlut => 0xF0#8
  | .rdphalf2 => 0xF1#8
  | .settilesize => 0xF2#8
  | .loadblock => 0xF3#8
  | .loadtile => 0xF4#8
  | .settile => 0xF5#8
  | .fillrect => 0xF6#8
  | .setfillcolor => 0xF7#8
  | .setprimcolor => 0xFA#8
  | .setenvcolor => 0xFB#8
  | .settimg => 0xFD#8

/-- The 29 assigned opcodes in the table's order. -/
def Opcode.all : List Opcode :=
  [.noop, .vtx, .tri1, .tri2, .quad, .texture, .popmtx, .mtx, .dl, .endList, .spnoop, .rdphalf1,
   .texrect, .texrectm, .loadsync, .pipesync, .tilesync, .fullsync, .loadtlut, .rdphalf2,
   .settilesize, .loadblock, .loadtile, .settile, .fillrect, .setfillcolor, .setprimcolor,
   .setenvcolor, .settimg]

/-- The opcode a byte is, if it is one of the 29 (R91, R96). -/
def Opcode.ofCode (c : BitVec 8) : Option Opcode :=
  Opcode.all.find? fun o => o.code == c

/-- Why the decoder rejects bytes. -/
inductive DecodeError where
  /-- Fewer than the 8 bytes of an entry (R90). -/
  | truncated (n : Nat)
  /-- One of the 227 unassigned opcodes (R110). -/
  | unassigned (op : BitVec 8)
deriving DecidableEq, Repr

/-- The `n` bits of a word from bit `lo` upward: `w[lo+n-1:lo]` (R8). -/
def field (w : Word) (lo n : Nat) : BitVec n := w.extractLsb' lo n

/-- The operands of a command of opcode `o` (R97 to R109). -/
def decodeFields (o : Opcode) (w0 w1 : Word) : Instr :=
  match o with
  | .noop => .noop
  | .vtx => .vtx (field w0 12 8) (field w0 1 7) w1
  | .tri1 => .tri1 (field w0 16 8) (field w0 8 8) (field w0 0 8)
  | .tri2 => .tri2 (field w0 16 8) (field w0 8 8) (field w0 0 8) (field w1 16 8) (field w1 8 8) (field w1 0 8)
  | .quad => .quad (field w0 16 8) (field w0 8 8) (field w0 0 8) (field w1 16 8) (field w1 8 8) (field w1 0 8)
  | .texture => .texture (field w1 16 16) (field w1 0 16)
  | .popmtx => .popmtx
  | .mtx => .mtx (field w0 2 1) (field w0 1 1) (field w0 0 1) w1
  | .dl => .dl (field w0 16 1) w1
  | .endList => .endList
  | .spnoop => .spnoop
  | .rdphalf1 => .rdphalf1 w1
  | .texrect => .texrect (field w0 12 12) (field w0 0 12) (field w1 24 3) (field w1 12 12) (field w1 0 12)
  | .texrectm => .texrectm (field w0 12 12) (field w0 0 12) (field w1 24 3) (field w1 12 12) (field w1 0 12)
  | .loadsync => .loadsync
  | .pipesync => .pipesync
  | .tilesync => .tilesync
  | .fullsync => .fullsync
  | .loadtlut => .loadtlut (field w1 24 3) (field w1 14 10)
  | .rdphalf2 => .rdphalf2 w1
  | .settilesize => .settilesize (field w0 12 12) (field w0 0 12) (field w1 24 3) (field w1 12 12) (field w1 0 12)
  | .loadblock => .loadblock (field w0 12 12) (field w0 0 12) (field w1 24 3) (field w1 12 12) (field w1 0 12)
  | .loadtile => .loadtile (field w0 12 12) (field w0 0 12) (field w1 24 3) (field w1 12 12) (field w1 0 12)
  | .settile =>
    .settile (field w0 21 3) (field w0 19 2) (field w0 9 9) (field w0 0 9) (field w1 24 3) (field w1 20 4)
      (field w1 18 2) (field w1 14 4) (field w1 10 4) (field w1 8 2) (field w1 4 4) (field w1 0 4)
  | .fillrect => .fillrect (field w0 12 12) (field w0 0 12) (field w1 12 12) (field w1 0 12)
  | .setfillcolor => .setfillcolor w1
  | .setprimcolor => .setprimcolor (field w1 24 8) (field w1 16 8) (field w1 8 8) (field w1 0 8)
  | .setenvcolor => .setenvcolor (field w1 24 8) (field w1 16 8) (field w1 8 8) (field w1 0 8)
  | .settimg => .settimg (field w0 21 3) (field w0 19 2) (field w0 0 12) w1

/-- Decode one entry from its two words (R90, R91). -/
def decodeEntry (w0 w1 : Word) : Except DecodeError Instr :=
  match Opcode.ofCode (field w0 24 8) with
  | some o => .ok (decodeFields o w0 w1)
  | none => .error (.unassigned (field w0 24 8))

/-- A value put into a word from bit `lo` upward: `v << lo` (R8, R114). -/
def put {n : Nat} (v : BitVec n) (lo : Nat) : Word := v.setWidth 32 <<< lo

/-- Four bytes as a word, the first the most significant (R64). -/
def wordOfBytes (b0 b1 b2 b3 : Byte) : Word := put b0 24 ||| put b1 16 ||| put b2 8 ||| put b3 0

/-- The decoder: an instruction from the bytes of the stream at the cursor, or a rejection by name. It looks at the
first 8 bytes; the continuation entries of TEXRECT and TEXRECTM are not decoded (R92). -/
def decode : List Byte → Except DecodeError Instr
  | b0 :: b1 :: b2 :: b3 :: b4 :: b5 :: b6 :: b7 :: _ => decodeEntry (wordOfBytes b0 b1 b2 b3) (wordOfBytes b4 b5 b6 b7)
  | bs => .error (.truncated bs.length)

/-- The two coordinates of format T in the low 24 bits of a word (R94). -/
def pair (a b : BitVec 12) : Word := put a 12 ||| put b 0

/-- The three byte-offsets of format V in the low 24 bits of a word (R95). -/
def triple (i0 i1 i2 : BitVec 8) : Word := put i0 16 ||| put i1 8 ||| put i2 0

/-- The four channels of a colour command (R109). -/
def channels (r g b a : BitVec 8) : Word := put r 24 ||| put g 16 ||| put b 8 ||| put a 0

/-- The first word of a command without its opcode byte (R97 to R109, R114). -/
def encodeParams : Instr → Word
  | .vtx n e _ => put n 12 ||| put e 1
  | .tri1 i0 i1 i2 => triple i0 i1 i2
  | .tri2 i0 i1 i2 _ _ _ => triple i0 i1 i2
  | .quad i0 i1 i2 _ _ _ => triple i0 i1 i2
  | .mtx j l p _ => put j 2 ||| put l 1 ||| put p 0
  | .dl j _ => put j 16
  | .texrect lrx lry _ _ _ => pair lrx lry
  | .texrectm lrx lry _ _ _ => pair lrx lry
  | .settilesize uls ult _ _ _ => pair uls ult
  | .loadblock uls ult _ _ _ => pair uls ult
  | .loadtile uls ult _ _ _ => pair uls ult
  | .settile fmt siz line tmem _ _ _ _ _ _ _ _ => put fmt 21 ||| put siz 19 ||| put line 9 ||| put tmem 0
  | .fillrect lrx lry _ _ => pair lrx lry
  | .settimg fmt siz wm1 _ => put fmt 21 ||| put siz 19 ||| put wm1 0
  | .noop | .popmtx | .endList | .spnoop | .loadsync | .pipesync | .tilesync | .fullsync => 0#32
  | .texture _ _ | .rdphalf1 _ | .rdphalf2 _ | .setfillcolor _ | .setprimcolor _ _ _ _ | .setenvcolor _ _ _ _ => 0#32
  | .loadtlut _ _ => 0#32

/-- The second word of a command (R97 to R109, R114). -/
def encodeW1 : Instr → Word
  | .vtx _ _ addr => addr
  | .tri1 _ _ _ => 0#32
  | .tri2 _ _ _ i3 i4 i5 => triple i3 i4 i5
  | .quad _ _ _ i3 i4 i5 => triple i3 i4 i5
  | .texture scS scT => put scS 16 ||| put scT 0
  | .mtx _ _ _ addr => addr
  | .dl _ addr => addr
  | .rdphalf1 data => data
  | .rdphalf2 data => data
  | .texrect _ _ tile ulx uly => put tile 24 ||| pair ulx uly
  | .texrectm _ _ tile ulx uly => put tile 24 ||| pair ulx uly
  | .loadtlut tile cnt => put tile 24 ||| put cnt 14
  | .settilesize _ _ tile lrs lrt => put tile 24 ||| pair lrs lrt
  | .loadblock _ _ tile lrs dxt => put tile 24 ||| pair lrs dxt
  | .loadtile _ _ tile lrs lrt => put tile 24 ||| pair lrs lrt
  | .settile _ _ _ _ tile palette cmt maskt shiftt cms masks shifts =>
    put tile 24 ||| put palette 20 ||| put cmt 18 ||| put maskt 14 ||| put shiftt 10 ||| put cms 8 ||| put masks 4 |||
      put shifts 0
  | .fillrect _ _ ulx uly => pair ulx uly
  | .setfillcolor fill => fill
  | .setprimcolor r g b a => channels r g b a
  | .setenvcolor r g b a => channels r g b a
  | .settimg _ _ _ addr => addr
  | .noop | .popmtx | .endList | .spnoop | .loadsync | .pipesync | .tilesync | .fullsync => 0#32

/-- The encoder: the two words of a command, with 0 in every ignored bit (R97 to R109, R114). -/
def encode (i : Instr) : Word × Word := (put i.opcode.code 24 ||| encodeParams i, encodeW1 i)

/-- A word as the four bytes memory holds it in, most significant first (R64). -/
def wordBytes (w : Word) : List Byte :=
  [field w 24 8, field w 16 8, field w 8 8, field w 0 8]

/-- The 8 bytes of an entry (R66). -/
def encodeBytes (i : Instr) : List Byte :=
  wordBytes (encode i).1 ++ wordBytes (encode i).2

/-- Two words as the 64-bit value `cmd = w0 ∥ w1` (R8). -/
def joinWords (w0 w1 : Word) : BitVec 64 := (w0.setWidth 64 <<< 32) ||| w1.setWidth 64

/-- The 64-bit value `cmd` of an entry, which spec/opcode_table.json numbers (R8). -/
def encodeCmd (i : Instr) : BitVec 64 := joinWords (encode i).1 (encode i).2

/-- The 8 bytes of an entry given as `cmd` (R8, R66). -/
def cmdBytes (cmd : BitVec 64) : List Byte :=
  wordBytes (cmd.extractLsb' 32 32) ++ wordBytes (cmd.extractLsb' 0 32)

/-- The entry whose bits are `w`, numbered as spec/opcode_table.json numbers them: bit 63 is the top bit of `w0` and
bit 0 the low bit of `w1`, the table's "one word" being the 64-bit `cmd` (notes/assumptions/9.md). Bits from `nbits`
upward are 0. -/
def cmdOfTable (nbits w : Nat) : BitVec 64 := BitVec.ofNat 64 (w % 2 ^ nbits)

/-- What the decoder reads from the instruction whose bits are `w`, laid out in memory with the two zero continuation
entries the longest command takes. -/
def decodeTableWord (nbits w : Nat) : Option Instr :=
  match decode (cmdBytes (cmdOfTable nbits w) ++ List.replicate 16 0#8) with
  | .ok i => some i
  | .error _ => none

/-! Pseudo-instructions (R115). -/

/-- `CALL addr`. -/
def asmCall (addr : Addr) : Instr := .dl 0#1 addr

/-- `JUMP addr`. -/
def asmJump (addr : Addr) : Instr := .dl 1#1 addr

/-- `TRI1v a, b, c`, with cache indices. -/
def asmTri1v (a b c : BitVec 7) : Instr := .tri1 (a.setWidth 8 <<< 1) (b.setWidth 8 <<< 1) (c.setWidth 8 <<< 1)

/-- `TEXRECT3`: a TEXRECT and its two tagged continuation entries. -/
def asmTexrect3 (tile : BitVec 3) (ulx uly lrx lry : BitVec 12) (s t dsdx dtdy : BitVec 16) : List Instr :=
  [.texrect lrx lry tile ulx uly, .rdphalf1 (put s 16 ||| put t 0), .rdphalf2 (put dsdx 16 ||| put dtdy 0)]

end Sys2Proof
end

