-- ==== Sys2Proof/Machine/Ops.lean ====
section
/-! DEFINITION. The named operations: the read port on memory and the Address Resolver (spec/20_memory.md), the output
trace and the texture handles (spec/10_state.md R50 to R54), the walker's stack (spec/40_walker_control.md R120 to
R124), and the frame reset with the entry of a pass (spec/70_reset_and_hazards.md R300, R302; spec/60_exceptions.md
R293). The block has no exception to take and none to return from (R280, R285): the frame reset is the one operation that
stands where another machine's reset or trap entry would. The block never writes memory (R70): `Memory.write` is how the
platform places a byte. -/

namespace Sys2Proof.Machine

/-! Memory -/

/-- The canonical form: locations strictly rising. -/
abbrev Memory.wf (m : Memory) : Prop := m.Pairwise fun x y => x.1 < y.1

/-- The byte the platform placed at a location, if it placed one. -/
def Memory.read? : Memory → Nat → Option Byte
  | [], _ => none
  | (k, b) :: rest, loc => if k = loc then some b else Memory.read? rest loc

/-- `Mem(loc)`: the byte at a location; memory is total (R62), and what the list does not name is a free value. -/
def Memory.byte (m : Memory) (loc : Nat) : Byte := (Memory.read? m loc).getD (Config.freeByte loc)

/-- Place a byte, keeping the canonical form. Used by no command (R70). -/
def Memory.write : Memory → Nat → Byte → Memory
  | [], loc, b => [(loc, b)]
  | (k, c) :: rest, loc, b =>
    if loc < k then (loc, b) :: (k, c) :: rest
    else if loc = k then (loc, b) :: rest
    else (k, c) :: Memory.write rest loc b

/-- Place bytes one after another from a location upward. -/
def Memory.writeBytes (m : Memory) (loc : Nat) : List Byte → Memory
  | [] => m
  | b :: bs => Memory.writeBytes (Memory.write m loc b) (loc + 1) bs

/-- `MemByte(loc) = MemRead(loc, 1)` (R12, R64). -/
def Memory.read1 (m : Memory) (loc : Nat) : Byte := Memory.byte m loc

/-- Two bytes as a half, the first the more significant (R64). -/
def halfOfBytes (b0 b1 : Byte) : Half := (b0.setWidth 16 <<< 8) ||| b1.setWidth 16

/-- `MemRead(loc, 2)`: the byte at the lowest location is the most significant (R64). -/
def Memory.read2 (m : Memory) (loc : Nat) : Half := halfOfBytes (Memory.byte m loc) (Memory.byte m (loc + 1))

/-- `MemRead(loc, 4)` (R64). -/
def Memory.read4 (m : Memory) (loc : Nat) : Word :=
  wordOfBytes (Memory.byte m loc) (Memory.byte m (loc + 1)) (Memory.byte m (loc + 2)) (Memory.byte m (loc + 3))

/-- The 8 bytes of the entry at a location (R66). -/
def Memory.entryBytes (m : Memory) (loc : Nat) : List Byte :=
  [Memory.byte m loc, Memory.byte m (loc + 1), Memory.byte m (loc + 2), Memory.byte m (loc + 3),
   Memory.byte m (loc + 4), Memory.byte m (loc + 5), Memory.byte m (loc + 6), Memory.byte m (loc + 7)]

/-! The Address Resolver -/

/-- Where a region puts an address, if it covers it. -/
def Region.locate (r : Region) (a : Addr) : Option Nat :=
  if r.base ≤ a.toNat ∧ a.toNat < r.base + r.size then some (r.loc + (a.toNat - r.base)) else none

/-- The first region that covers an address. -/
def resolveIn : List Region → Addr → Option Nat
  | [], _ => none
  | r :: rs, a =>
    match Region.locate r a with
    | some loc => some loc
    | none => resolveIn rs a

/-- `Resolve(a)` (R60): none for address 0, and for every address the platform does not map. -/
def State.resolve (s : State) (a : Addr) : Option Nat :=
  if a = 0#32 then none else resolveIn s.resolver a

/-! The output trace and texture handles -/

/-- `Emit(e)` appends an event to `OUT` (R50). -/
def State.emit (s : State) (e : Event) : State := { s with out := s.out ++ [e] }

/-- The descriptor of a tile. -/
def State.tileAt (s : State) (t : Fin 8) : Tile := s.tile[t]

/-- Write a tile's descriptor. -/
def State.setTile (s : State) (t : Fin 8) (d : Tile) : State := { s with tile := s.tile.set t d }

/-- The handles currently held in any `TILE[t].tex` (R51). -/
def State.held (s : State) : List Handle := s.tile.toList.filterMap Tile.tex

/-- The adapter's answer made to obey its one law: it differs from every handle held (R51). An answer that already
obeys it is left as it is; another is replaced by one above all handles held (notes/assumptions/7.md). -/
def freshHandle (held : List Handle) (answer : Handle) : Handle :=
  if answer ∈ held then held.foldl max answer + 1 else answer

/-- The handle the adapter answers to the next `create_or_replace_texture`: the next of the state's answers, a free
value when they have run out. -/
def State.nextHandle (s : State) : Handle :=
  freshHandle s.held (s.answers.head?.getD (Config.adapterAnswer s.draws))

/-- The answer is used up. -/
def State.takeAnswer (s : State) : State := { s with answers := s.answers.tail, draws := s.draws + 1 }

/-- Write `TILE[t].tex`; a write to tile 0's is mirrored into `LEGACY_TEX` (R38, R187). -/
def State.setTex (s : State) (t : Fin 8) (h : Option Handle) : State :=
  { s with
    tile := s.tile.set t { s.tileAt t with tex := h }
    legacyTex := if t = 0 then h else s.legacyTex }

/-- `Release(t)` (R186). -/
def State.release (s : State) (t : Fin 8) : State :=
  match (s.tileAt t).tex with
  | none => s
  | some h => (s.emit (.releaseTexture h)).setTex t none

/-! The walker's stack -/

/-- Add to the cursor of the top frame (R45). -/
def State.advance (s : State) (n : Nat) : State :=
  match s.stack with
  | [] => s
  | f :: fs => { s with stack := { f with cursor := f.cursor + n } :: fs }

/-- Pop the top frame, and every frame marked `tail` that this uncovers (R121). -/
def popFrames (stack : List Frame) : List Frame := stack.tail.dropWhile Frame.tail

/-- `ReturnFromList` (R121). -/
def State.returnFromList (s : State) : State := { s with stack := popFrames s.stack }

/-- `top.tail <- true` (R124). -/
def markTail : List Frame → List Frame
  | [] => []
  | f :: fs => { f with tail := true } :: fs

/-- Enter a list: push its frame (R120, R124). -/
def State.enter (s : State) (base : Nat) : State := { s with stack := ⟨base, 0, false⟩ :: s.stack }

/-! The frame reset and the entry of a pass -/

/-- What the vertex cache entry `i` holds after the frame reset number `pass`: unspecified (R302). -/
def openVertex (pass i : Nat) : VtxEntry where
  x := Config.unspecified pass (.vcX i)
  y := Config.unspecified pass (.vcY i)
  z := Config.unspecified pass (.vcZ i)
  w := Config.unspecified pass (.vcW i)
  u := Config.unspecified pass (.vcU i)
  v := Config.unspecified pass (.vcV i)
  c :=
    { r := (Config.unspecified pass (.vcC i 0)).setWidth 8
      g := (Config.unspecified pass (.vcC i 1)).setWidth 8
      b := (Config.unspecified pass (.vcC i 2)).setWidth 8
      a := (Config.unspecified pass (.vcC i 3)).setWidth 8 }

/-- What `TIMG` holds after the frame reset number `pass`: unspecified, `stride` in its range 1 to 4096 (R34, R302). -/
def openTimg (pass : Nat) : Timg where
  addr := Config.unspecified pass .timgAddr
  fmt := (Config.unspecified pass .timgFmt).setWidth 3
  siz := (Config.unspecified pass .timgSiz).setWidth 2
  stride := ((Config.unspecified pass .timgStride).setWidth 12).setWidth 13 + 1#13

/-- What `PRIM` or `ENV` holds after the frame reset number `pass`: unspecified (R302). -/
def openColour (pass : Nat) (r : Nat → OpenReg) : Rgba where
  r := (Config.unspecified pass (r 0)).setWidth 8
  g := (Config.unspecified pass (r 1)).setWidth 8
  b := (Config.unspecified pass (r 2)).setWidth 8
  a := (Config.unspecified pass (r 3)).setWidth 8

/-- The tiles in ascending order. -/
def allTiles : List (Fin 8) := [0, 1, 2, 3, 4, 5, 6, 7]

/-- Release a tile's texture and zero its descriptor (R300). -/
def State.zeroTile (s : State) (t : Fin 8) : State := (s.release t).setTile t Tile.zero

/-- The frame reset (R300): tiles released and zeroed in ascending order, `LEGACY_TEX` none, matrices to identity,
texture scales to full scale, continuation registers cleared; every element the list does not name takes an
unspecified value (R302). -/
def State.frameReset (s : State) : State :=
  { allTiles.foldl State.zeroTile s with
    legacyTex := none
    mv := identity
    pj := identity
    mvp := identity
    tscaleS := Config.tscaleFull
    tscaleT := Config.tscaleFull
    cont0 := 0#32
    cont1 := 0#32
    vc := Vector.ofFn fun i => openVertex s.frames i
    timg := openTimg s.frames
    tlut := Vector.ofFn fun k => (Config.unspecified s.frames (.tlut k)).setWidth 16
    prim := openColour s.frames .prim
    env := openColour s.frames .env
    fill := Config.unspecified s.frames .fill
    frames := s.frames + 1 }

/-- `interpret(ref, TOP_DEPTH)` (R120): the top-level list if its reference resolves, else the pass is done at once. -/
def State.enterPass (s : State) (ref : Option Nat) : State :=
  match ref with
  | none => { s with stack := [] }
  | some base => { s with stack := [⟨base, 0, false⟩] }

/-- The host starts a pass (R293): the frame reset, then the walk of the list it hands over, on the memory and the
resolver of that pass (R75, R77). -/
def State.startPass (s : State) (p : PassRequest) : State :=
  let s' := { s.frameReset with resolver := p.resolver, mem := p.mem }
  s'.enterPass (s'.resolve p.top)

/-- Between passes (R292, R293): the block starts the next pass the host asks for, and otherwise holds its state. -/
def State.betweenPasses (s : State) : State :=
  match s.requests with
  | [] => s
  | p :: rest => { s with requests := rest }.startPass p

/-- `first_opcode(top)` (R294), which the host may test before a pass: the opcode of the first entry of a list whose
address resolves. -/
def State.firstOpcode (s : State) (top : Addr) : Option (BitVec 8) :=
  match s.resolve top with
  | none => none
  | some loc => some (field (Memory.read4 s.mem loc) 24 8)

end Sys2Proof.Machine
end

