-- ==== Sys2Proof/Machine/Operands.lean ====
section
/-! DEFINITION. How operands are formed (spec/30_encoding.md R97 to R109; spec/00_scope.md R14): cache indices, pixel
coordinates, the signed halves of continuation words, the fill colour, and the records a command reads from memory. -/

namespace Sys2Proof.Machine

/-- The "signed base cache index" `base = e - n` of VTX, -255 to 127 (R99, R145). -/
def vtxBase (n : BitVec 8) (e : BitVec 7) : Int := (e.toNat : Int) - n.toNat

/-- The logical address of source vertex `i`: `(addr + 16·i) mod 2^32` (R146). -/
def vertexAddr (addr : Addr) (i : Nat) : Addr := addr + BitVec.ofNat 32 (16 * i)

/-- The cache index of a byte-offset: halved, the low bit dropped (R261). -/
def cacheIndex (f : BitVec 8) : Nat := f.toNat / 2

/-- The pixel coordinate of a 10.2 field (R230). -/
def px (f : BitVec 12) : F32 := fdiv (i2f f.toNat) (i2f 4)

/-- The high and the low half of a continuation word, each signed (R108). -/
def highHalf (w : Word) : Int := (field w 16 16).toInt

/-- See `highHalf`. -/
def lowHalf (w : Word) : Int := (field w 0 16).toInt

/-- A colour operand's channels (R109). -/
def rgba (r g b a : BitVec 8) : Rgba := ⟨r, g, b, a⟩

/-- The width or height of a region from its two 10.2 bounds: `(hi >> 2) - (lo >> 2) + 1` (R180). -/
def extent (lo hi : BitVec 12) : Int := ((hi.toNat / 4 : Nat) : Int) - ((lo.toNat / 4 : Nat) : Int) + 1

/-- How many palette entries LOADTLUT copies: `min(cnt + 1, 256)` (R183). -/
def tlutCount (cnt : BitVec 10) : Nat := min (cnt.toNat + 1) Config.tlutSize

/-- Three five-bit colours of a 16-bit unit, each shifted left to 8 bits (R202, R233). -/
def fiveBit (v : Half) (lo : Nat) : Byte := (v.extractLsb' lo 5).setWidth 8 <<< 3

/-- `FillColor(fill)`: the low half's 5-5-5 colours, opaque (R233). -/
def fillColor (fill : Word) : Rgba :=
  let c := field fill 0 16
  ⟨fiveBit c 11, fiveBit c 6, fiveBit c 1, 255#8⟩

/-- A source vertex (R147); its `flag` halfword is read by nothing. -/
structure SourceVertex where
  x : Int
  y : Int
  z : Int
  s : Int
  t : Int
  c : Rgba
deriving DecidableEq, Repr

/-- The source vertex at a location: signed halves at 0, 2, 4, 8 and 10, bytes at 12 to 15 (R147). -/
def sourceVertex (m : Memory) (loc : Nat) : SourceVertex where
  x := (Memory.read2 m loc).toInt
  y := (Memory.read2 m (loc + 2)).toInt
  z := (Memory.read2 m (loc + 4)).toInt
  s := (Memory.read2 m (loc + 8)).toInt
  t := (Memory.read2 m (loc + 10)).toInt
  c := ⟨Memory.read1 m (loc + 12), Memory.read1 m (loc + 13), Memory.read1 m (loc + 14), Memory.read1 m (loc + 15)⟩

/-- An element of a wire matrix: a signed integer half and an unsigned fraction half, `int_part + frac_part/65536`
(R141). -/
def wireElement (ip fp : Half) : F32 :=
  fadd (i2f ip.toInt) (fdiv (i2f fp.toNat) (i2f 65536))

/-- The texture coordinate of a raw S10.5 value under a 0.16 scale (R150). -/
def texCoord (raw : Int) (scale : BitVec 16) : F32 :=
  fdiv (fmul (i2f raw) (fdiv (i2f scale.toNat) (i2f 65536))) (i2f 32)

end Sys2Proof.Machine
end

