-- ==== Sys2Proof/Machine/Texel.lean ====
section
/-! DEFINITION. The texel decoder and palette lookup (spec/43_texel_decode.md): one function per decode rule and the
dispatcher `decodeTexel` of R211. A decode writes no state. -/

namespace Sys2Proof.Machine

/-- `Nib(loc, k)`: the high nibble is the even-numbered texel (R201). -/
def texNib (m : Memory) (loc : Nat) (k : Nat) : BitVec 4 :=
  let b := Memory.read1 m (loc + k / 2)
  if k % 2 = 0 then b.extractLsb' 4 4 else b.extractLsb' 0 4

/-- `Byte(loc, k)` (R201). -/
def texByte (m : Memory) (loc : Nat) (k : Nat) : Byte := Memory.read1 m (loc + k)

/-- `Unit16(loc, k)` (R201, R65). -/
def texUnit16 (m : Memory) (loc : Nat) (k : Nat) : Half := Memory.read2 m (loc + 2 * k)

/-- `Quad(loc, k)` as the four channels, a direct copy (R201, R203). -/
def texQuad (m : Memory) (loc : Nat) (k : Nat) : Rgba :=
  ⟨Memory.read1 m (loc + 4 * k), Memory.read1 m (loc + 4 * k + 1), Memory.read1 m (loc + 4 * k + 2),
   Memory.read1 m (loc + 4 * k + 3)⟩

/-- `Rep4(n) = (n << 4) | n` (R213). -/
def rep4 (n : BitVec 4) : Byte := (n.setWidth 8 <<< 4) ||| n.setWidth 8

/-- `Rep3(i) = (i << 5) | (i << 2) | (i >> 1)` (R213). -/
def rep3 (i : BitVec 3) : Byte := (i.setWidth 8 <<< 5) ||| (i.setWidth 8 <<< 2) ||| (i.setWidth 8 >>> 1)

/-- `Bit255(b)` (R213). -/
def bit255 (b : Bool) : Byte := if b then 255#8 else 0#8

/-- `Rgba16(v)`: 5-5-5 colours shifted left, alpha in bit 0 (R202). -/
def rgba16 (v : Half) : Rgba := ⟨fiveBit v 11, fiveBit v 6, fiveBit v 1, bit255 (v.getLsbD 0)⟩

/-- IA16 (R204). -/
def texIA16 (v : Half) : Rgba :=
  let i := v.extractLsb' 8 8
  ⟨i, i, i, v.extractLsb' 0 8⟩

/-- IA8 (R205). -/
def texIA8 (b : Byte) : Rgba :=
  let i := rep4 (b.extractLsb' 4 4)
  ⟨i, i, i, rep4 (b.extractLsb' 0 4)⟩

/-- IA4 (R206). -/
def texIA4 (n : BitVec 4) : Rgba :=
  let i := rep3 (n.extractLsb' 1 3)
  ⟨i, i, i, bit255 (n.getLsbD 0)⟩

/-- I8 (R207). -/
def texI8 (b : Byte) : Rgba := ⟨b, b, b, 255#8⟩

/-- I4 (R212). -/
def texI4 (n : BitVec 4) : Rgba := ⟨rep4 n, rep4 n, rep4 n, 255#8⟩

/-- CI8: the palette entry the byte names (R208). -/
def texCI8 (tlut : Vector (BitVec 16) Config.tlutSize) (b : Byte) : Rgba := rgba16 tlut[b.toFin]

/-- CI4: the palette selector is the high nibble of the index (R209). -/
def texCI4 (tlut : Vector (BitVec 16) Config.tlutSize) (palette n : BitVec 4) : Rgba :=
  texCI8 tlut ((palette.setWidth 8 <<< 4) ||| n.setWidth 8)

/-- The diagnostic colour (R210). -/
def texDiag : Rgba :=
  ⟨Config.diagColor.1, Config.diagColor.2.1, Config.diagColor.2.2.1, Config.diagColor.2.2.2⟩

/-- The nine decodable (format, size) pairs, and the rest (R200). -/
inductive TexelKind where
  | rgba16 | rgba32 | ia16 | ia8 | ia4 | i8 | i4 | ci8 | ci4 | diagnostic
deriving DecidableEq, Repr

/-- The decode rule of a (format, size) pair (R200): format 0 RGBA, 2 CI, 3 IA, 4 I; size 0 to 3 for 4, 8, 16 and 32
bits. -/
def texelKind (fmt : BitVec 3) (siz : BitVec 2) : TexelKind :=
  if fmt = 0#3 ∧ siz = 2#2 then .rgba16
  else if fmt = 0#3 ∧ siz = 3#2 then .rgba32
  else if fmt = 3#3 ∧ siz = 2#2 then .ia16
  else if fmt = 3#3 ∧ siz = 1#2 then .ia8
  else if fmt = 3#3 ∧ siz = 0#2 then .ia4
  else if fmt = 4#3 ∧ siz = 1#2 then .i8
  else if fmt = 4#3 ∧ siz = 0#2 then .i4
  else if fmt = 2#3 ∧ siz = 1#2 then .ci8
  else if fmt = 2#3 ∧ siz = 0#2 then .ci4
  else .diagnostic

/-- `DecodeTexel(fmt, siz, palette, loc, k)` (R211): a pure function of its arguments, memory and the palette. -/
def decodeTexel (m : Memory) (tlut : Vector (BitVec 16) Config.tlutSize) (fmt : BitVec 3) (siz : BitVec 2)
    (palette : BitVec 4) (loc : Nat) (k : Nat) : Rgba :=
  match texelKind fmt siz with
  | .rgba16 => rgba16 (texUnit16 m loc k)
  | .rgba32 => texQuad m loc k
  | .ia16 => texIA16 (texUnit16 m loc k)
  | .ia8 => texIA8 (texByte m loc k)
  | .ia4 => texIA4 (texNib m loc k)
  | .i8 => texI8 (texByte m loc k)
  | .i4 => texI4 (texNib m loc k)
  | .ci8 => texCI8 tlut (texByte m loc k)
  | .ci4 => texCI4 tlut palette (texNib m loc k)
  | .diagnostic => texDiag

/-- Bits per texel: `4 << siz` (R189). -/
def bitsPerTexel (siz : BitVec 2) : Nat := 4 * 2 ^ siz.toNat

end Sys2Proof.Machine
end

