-- ==== Sys2Proof/Machine/Tile.lean ====
section
/-! DEFINITION. The tile descriptor state machine and texture realization (spec/42_tile_texture.md): SETTIMG, SETTILE,
SETTILESIZE, LOADTILE, LOADBLOCK, LOADTLUT. -/

namespace Sys2Proof.Machine

/-- A texel's four bytes in buffer order (R51, R185). -/
def rgbaBytes (c : Rgba) : List Byte := [c.r, c.g, c.b, c.a]

/-- One row of a realization: texels `r·width` to `r·width + width - 1` of the packed source (R185, R188). -/
def realizeRow (m : Memory) (tlut : Vector (BitVec 16) Config.tlutSize) (d : Tile) (loc : Nat) (width r : Nat) :
    List Byte :=
  (List.range width).flatMap fun c => rgbaBytes (decodeTexel m tlut d.fmt d.siz d.palette loc (r * width + c))

/-- The RGBA buffer of a realization, row-major, top row first (R51, R185). -/
def realizeBuffer (m : Memory) (tlut : Vector (BitVec 16) Config.tlutSize) (d : Tile) (loc : Nat) : List Byte :=
  (List.range d.height.toNat).flatMap (realizeRow m tlut d loc d.width.toNat)

/-- The texture is created: the event with the adapter's answer, which the tile then holds (R185). -/
def State.createTexture (s : State) (t : Fin 8) (buf : List Byte) : State :=
  let d := s.tileAt t
  let h := s.nextHandle
  (s.takeAnswer.emit (.createTexture buf d.width d.height h)).setTex t (some h)

/-- `Realize(t)` (R185): release, and build when there is a source and a positive size. -/
def State.realize (s : State) (t : Fin 8) : State :=
  let s := s.release t
  let d := s.tileAt t
  match d.src with
  | none => s
  | some loc =>
    if d.width < 1 ∨ d.height < 1 then s
    else s.createTexture t (realizeBuffer s.mem s.tlut d loc)

/-- `EnsureRealized(t)`: first use (R184). -/
def State.ensureRealized (s : State) (t : Fin 8) : State :=
  if (s.tileAt t).tex.isNone && (s.tileAt t).src.isSome then s.realize t else s

/-- `TILE[t].src <- Resolve(TIMG.addr)` (R180, R181, R182). -/
def State.bindSource (s : State) (t : Fin 8) : State :=
  s.setTile t { s.tileAt t with src := s.resolve s.timg.addr }

/-- SETTIMG (R178). -/
def execSettimg (fmt : BitVec 3) (siz : BitVec 2) (wm1 : BitVec 12) (addr : Addr) (s : State) :
    Host.Outcome State Fault Refusal :=
  .next { s with timg := ⟨addr, fmt, siz, wm1.setWidth 13 + 1#13⟩ }

/-- SETTILE (R179). -/
def execSettile (fmt : BitVec 3) (siz : BitVec 2) (line tmem : BitVec 9) (tile : BitVec 3) (palette : BitVec 4)
    (cmt : BitVec 2) (maskt shiftt : BitVec 4) (cms : BitVec 2) (masks shifts : BitVec 4) (s : State) :
    Host.Outcome State Fault Refusal :=
  .next (s.setTile tile.toFin
    { s.tileAt tile.toFin with
      fmt := fmt, siz := siz, line := line, tmem := tmem, palette := palette
      cmt := cmt, maskt := maskt, shiftt := shiftt, cms := cms, masks := masks, shifts := shifts })

/-- The bounds and the size SETTILESIZE writes (R180). -/
def State.setBounds (s : State) (t : Fin 8) (uls ult lrs lrt : BitVec 12) : State :=
  s.setTile t
    { s.tileAt t with
      uls := uls, ult := ult, lrs := lrs, lrt := lrt
      width := extent uls lrs, height := extent ult lrt }

/-- SETTILESIZE (R180): a bound tile is rebuilt, an unbound one is bound from `TIMG`. -/
def execSettilesize (uls ult : BitVec 12) (tile : BitVec 3) (lrs lrt : BitVec 12) (s : State) :
    Host.Outcome State Fault Refusal :=
  let s' := s.setBounds tile.toFin uls ult lrs lrt
  .next (if (s'.tileAt tile.toFin).src.isSome then s'.realize tile.toFin else s'.bindSource tile.toFin)

/-- LOADTILE (R181): the coordinates are ignored. -/
def execLoadtile (_uls _ult : BitVec 12) (tile : BitVec 3) (_lrs _lrt : BitVec 12) (s : State) :
    Host.Outcome State Fault Refusal :=
  .next (s.bindSource tile.toFin)

/-- LOADBLOCK (R182): as LOADTILE; the texel count and `dxt` are ignored. -/
def execLoadblock (_uls _ult : BitVec 12) (tile : BitVec 3) (_lrs _dxt : BitVec 12) (s : State) :
    Host.Outcome State Fault Refusal :=
  .next (s.bindSource tile.toFin)

/-- `TLUT[k] <- MemRead(loc + 2·k, 2)` (R183). -/
def loadTlutEntry (m : Memory) (loc : Nat) (tlut : Vector (BitVec 16) Config.tlutSize) (k : Nat) :
    Vector (BitVec 16) Config.tlutSize :=
  tlut.setIfInBounds k (Memory.read2 m (loc + 2 * k))

/-- LOADTLUT (R183): entries 0 upward; nothing when `TIMG.addr` does not resolve. -/
def execLoadtlut (_tile : BitVec 3) (cnt : BitVec 10) (s : State) : Host.Outcome State Fault Refusal :=
  .next (match s.resolve s.timg.addr with
    | none => s
    | some loc => { s with tlut := (List.range (tlutCount cnt)).foldl (loadTlutEntry s.mem loc) s.tlut })

end Sys2Proof.Machine
end

