-- ==== Sys2Proof/Machine/Rect.lean ====
section
/-! DEFINITION. The Rect/Fill pipeline and the colour registers (spec/44_rect_fill.md): FILLRECT, TEXRECT, TEXRECTM,
RDPHALF1, RDPHALF2, SETFILLCOLOR, SETPRIMCOLOR, SETENVCOLOR. -/

namespace Sys2Proof.Machine

/-- A vertex of a rectangle, with `z = 0.0` (R231). -/
def rectVertex (x y u v : F32) (c : Rgba) : ScreenVertex := ⟨x, y, fzero false, u, v, c⟩

/-- A rectangle's three events: one quad in the order upper-left, upper-right, lower-right, lower-left, with depth
testing suspended around it (R231). -/
def State.emitRect (s : State) (tex : Option Handle) (x0 y0 x1 y1 u0 v0 u1 v1 : F32) (c : Rgba) : State :=
  ((s.emit (.setDepthTest false)).emit
    (.drawQuad tex (rectVertex x0 y0 u0 v0 c) (rectVertex x1 y0 u1 v0 c) (rectVertex x1 y1 u1 v1 c)
      (rectVertex x0 y1 u0 v1 c))).emit (.setDepthTest true)

/-- FILLRECT (R232): nothing when `FILL` is the depth-clear sentinel. -/
def execFillrect (lrx lry ulx uly : BitVec 12) (s : State) : Host.Outcome State Fault Refusal :=
  .next (if s.fill = Config.fillDepthSentinel then s
    else s.emitRect none (px ulx) (px uly) (px lrx) (px lry) (fzero false) (fzero false) (fzero false) (fzero false)
      (fillColor s.fill))

/-- The two continuation entries are consumed, whatever their opcodes: the `w1` of each into `CONT0` and `CONT1`, the
cursor past both (R236). With no list active there is no stream to read (notes/assumptions/11.md). -/
def State.takeContinuation (s : State) : State :=
  match s.stack with
  | [] => s
  | f :: _ =>
    { s.advance 2 with
      cont0 := Memory.read4 s.mem (f.base + 8 * f.cursor + 4)
      cont1 := Memory.read4 s.mem (f.base + 8 * (f.cursor + 1) + 4) }

/-- The end of a textured rectangle's axis in texels: the origin stepped across the pixel extent (R236). -/
def stepEnd (origin step lo hi : F32) : F32 := fadd origin (fmul step (fsub hi lo))

/-- The textured quad of a tile whose texture is `h` (R236, steps 3): coordinates stepped from the origin, normalized
by the tile's size, in opaque white. -/
def State.drawTexrect (s : State) (d : Tile) (h : Handle) (lrx lry ulx uly : BitVec 12) : State :=
  let x0 := px ulx
  let y0 := px uly
  let x1 := px lrx
  let y1 := px lry
  let s0 := fdiv (i2f (highHalf s.cont0)) (i2f 32)
  let t0 := fdiv (i2f (lowHalf s.cont0)) (i2f 32)
  let ds := fdiv (i2f (highHalf s.cont1)) (i2f 1024)
  let dt := fdiv (i2f (lowHalf s.cont1)) (i2f 1024)
  let s1 := stepEnd s0 ds x0 x1
  let t1 := stepEnd t0 dt y0 y1
  let w := i2f d.width
  let h' := i2f d.height
  s.emitRect (some h) x0 y0 x1 y1 (fdiv s0 w) (fdiv t0 h') (fdiv s1 w) (fdiv t1 h') ⟨255#8, 255#8, 255#8, 255#8⟩

/-- What TEXRECT and TEXRECTM share (R236, R237): consume the continuation, realize the tile at first use, and draw
unless there is no texture or no positive size (R243). -/
def State.texrect (s : State) (lrx lry : BitVec 12) (t : Fin 8) (ulx uly : BitVec 12) : State :=
  let s := s.takeContinuation.ensureRealized t
  let d := s.tileAt t
  match d.tex with
  | none => s
  | some h => if d.width < 1 ∨ d.height < 1 then s else s.drawTexrect d h lrx lry ulx uly

/-- TEXRECT (R236). -/
def execTexrect (lrx lry : BitVec 12) (tile : BitVec 3) (ulx uly : BitVec 12) (s : State) :
    Host.Outcome State Fault Refusal :=
  .next (s.texrect lrx lry tile.toFin ulx uly)

/-- TEXRECTM (R237): no coordinate is mirrored. -/
def execTexrectm (lrx lry : BitVec 12) (tile : BitVec 3) (ulx uly : BitVec 12) (s : State) :
    Host.Outcome State Fault Refusal :=
  .next (s.texrect lrx lry tile.toFin ulx uly)

/-- RDPHALF1 met as a command (R238): no effect, `CONT0` is not written. -/
def execRdphalf1 (_data : BitVec 32) (s : State) : Host.Outcome State Fault Refusal := .next s

/-- RDPHALF2 met as a command (R239): no effect, `CONT1` is not written. -/
def execRdphalf2 (_data : BitVec 32) (s : State) : Host.Outcome State Fault Refusal := .next s

/-- SETFILLCOLOR (R240): the value is stored whole. -/
def execSetfillcolor (fill : BitVec 32) (s : State) : Host.Outcome State Fault Refusal :=
  .next { s with fill := fill }

/-- SETPRIMCOLOR (R241). -/
def execSetprimcolor (r g b a : BitVec 8) (s : State) : Host.Outcome State Fault Refusal :=
  .next { s with prim := rgba r g b a }

/-- SETENVCOLOR (R242). -/
def execSetenvcolor (r g b a : BitVec 8) (s : State) : Host.Outcome State Fault Refusal :=
  .next { s with env := rgba r g b a }

end Sys2Proof.Machine
end

