-- ==== Sys2Proof/Machine/Transform.lean ====
section
/-! DEFINITION. The Transform and Matrix Engine and the vertex cache load (spec/41_transform_vertex.md): MTX, POPMTX, VTX,
TEXTURE. Float operations are evaluated in exactly the order written. -/

namespace Sys2Proof.Machine

/-- A matrix from its elements. -/
def Mat.of (f : Fin 4 → Fin 4 → F32) : Mat := Vector.ofFn fun i => Vector.ofFn fun j => f i j

/-- `FromWire(loc)` (R141): the integer plane at bytes 0 to 31, the fraction plane at bytes 32 to 63. -/
def fromWire (m : Memory) (loc : Nat) : Mat :=
  Mat.of fun i j =>
    let e := 4 * i.val + j.val
    wireElement (Memory.read2 m (loc + 2 * e)) (Memory.read2 m (loc + 32 + 2 * e))

/-- `MatMul(a, b)`: products summed in ascending `k`, each rounded (R142). -/
def matMul (a b : Mat) : Mat :=
  Mat.of fun i j =>
    fadd (fadd (fadd (fmul a[i][0] b[0][j]) (fmul a[i][1] b[1][j])) (fmul a[i][2] b[2][j])) (fmul a[i][3] b[3][j])

/-- `Compose(mv, pj) = MatMul(mv, pj)` (R142). -/
def compose (mv pj : Mat) : Mat := matMul mv pj

/-- `MVP <- Compose(MV, PJ)` (R21, R142). -/
def State.recompose (s : State) : State := { s with mvp := compose s.mv s.pj }

/-- The new value of MTX's target: the loaded matrix (`L = 1`), or the loaded matrix on the left of the old target
(`L = 0`) (R143). -/
def loadedTarget (l : BitVec 1) (loaded old : Mat) : Mat := if l = 1#1 then loaded else matMul loaded old

/-- MTX's target is written, by `J`: 0 modelview, 1 projection (R143). -/
def State.loadMatrix (s : State) (j l : BitVec 1) (m : Mat) : State :=
  if j = 0#1 then { s with mv := loadedTarget l m s.mv } else { s with pj := loadedTarget l m s.pj }

/-- MTX (R143): nothing when the address does not resolve; the push bit is ignored. -/
def execMtx (j l _p : BitVec 1) (addr : Addr) (s : State) : Host.Outcome State Fault Refusal :=
  .next (match s.resolve addr with
    | none => s
    | some loc => (s.loadMatrix j l (fromWire s.mem loc)).recompose)

/-- POPMTX (R144): there is no matrix stack. `MVP` is the product as R142's pseudocode gives it, which differs from R144's
sentence on its elements where `PJ` is infinite or NaN, and where an element -0.0 stands in a column whose other three
elements are negative or -0.0: it stays -0.0 (DEDUCED, notes/assumptions/12.md). -/
def execPopmtx (s : State) : Host.Outcome State Fault Refusal :=
  .next { s with mv := identity }.recompose

/-- `Clip(px, py, pz, j)`: the position as a row vector on the left of `MVP`, its fourth component 1 (R148). -/
def clip (mvp : Mat) (x y z : F32) (j : Fin 4) : F32 :=
  fadd (fadd (fadd (fmul x mvp[0][j]) (fmul y mvp[1][j])) (fmul z mvp[2][j])) mvp[3][j]

/-- The cache entry a source vertex gives under the current `MVP` and texture scales (R145, R148 to R150). -/
def transformVertex (mvp : Mat) (scaleS scaleT : BitVec 16) (v : SourceVertex) : VtxEntry where
  x := clip mvp (i2f v.x) (i2f v.y) (i2f v.z) 0
  y := clip mvp (i2f v.x) (i2f v.y) (i2f v.z) 1
  z := clip mvp (i2f v.x) (i2f v.y) (i2f v.z) 2
  w := clip mvp (i2f v.x) (i2f v.y) (i2f v.z) 3
  u := texCoord v.s scaleS
  v := texCoord v.t scaleT
  c := v.c

/-- Source vertex `i` of a VTX: skipped when its index is outside [0,64) (tested first, on the integer, R151, R284) or
its address does not resolve; else its entry is written whole (R145). -/
def State.loadVertex (s : State) (base : Int) (addr : Addr) (i : Nat) : State :=
  let idx := base + i
  if 0 ≤ idx ∧ idx < Config.vcSize then
    match s.resolve (vertexAddr addr i) with
    | none => s
    | some loc =>
      { s with
        vc := s.vc.setIfInBounds idx.toNat (transformVertex s.mvp s.tscaleS s.tscaleT (sourceVertex s.mem loc)) }
  else s

/-- VTX (R145): source vertices 0 to `n - 1` in ascending order. -/
def execVtx (n : BitVec 8) (e : BitVec 7) (addr : Addr) (s : State) : Host.Outcome State Fault Refusal :=
  .next ((List.range n.toNat).foldl (fun s i => s.loadVertex (vtxBase n e) addr i) s)

/-- TEXTURE (R152). -/
def execTexture (scS scT : BitVec 16) (s : State) : Host.Outcome State Fault Refusal :=
  .next { s with tscaleS := scS, tscaleT := scT }

end Sys2Proof.Machine
end

