-- ==== Sys2Proof/Machine/Flags.lean ====
section
/-! DEFINITION. "The block has no status flags, no condition codes and no predicates. No command sets or tests a flag"
(spec/10_state.md R47), so there is no flag computation. What this file holds is the machine's tests on values: the
IEEE ordered comparisons of spec/00_scope.md R10 and the one guard that uses them (spec/45_triangle.md R262). -/

namespace Sys2Proof.Machine

/-- The order key of a value that is no NaN: its bits below the sign, negated for a negative value, so that both
zeros are 0 and the infinities are the ends. -/
def fkey (a : F32) : Int := if fsign a then -(fmagBits a : Int) else fmagBits a

/-- `flt(a, b)`: ordered less-than, false when either operand is a NaN (R10). -/
def flt (a b : F32) : Bool := !fisNaN a && !fisNaN b && decide (fkey a < fkey b)

/-- `fle(a, b)`: ordered less-or-equal, false when either operand is a NaN (R10). -/
def fle (a b : F32) : Bool := !fisNaN a && !fisNaN b && decide (fkey a ≤ fkey b)

/-- The degenerate-perspective guard: a cached vertex is skipped when `flt(fabs(w), W_EPSILON)` (R262). -/
def skipped (eps : F32) (p : VtxEntry) : Bool := flt (fabs p.w) eps

end Sys2Proof.Machine
end

