-- ==== Sys2Proof/Machine/Triangle.lean ====
section
/-! DEFINITION. Triangle assembly and the clip-space to screen conversion (spec/45_triangle.md): TRI1, TRI2, QUAD. -/

namespace Sys2Proof.Machine

/-- `Screen(p)` (R263): one reciprocal, three products, the vertical axis flipped; texture coordinates and colour are
carried unchanged. -/
def screen (p : VtxEntry) : ScreenVertex :=
  let inv := fdiv (i2f 1) p.w
  let nx := fmul p.x inv
  let ny := fmul p.y inv
  let nz := fmul p.z inv
  { x := fadd Config.halfW (fmul nx Config.halfW)
    y := fsub Config.halfH (fmul ny Config.halfH)
    z := nz
    u := p.u
    v := p.v
    c := p.c }

/-- `EmitTri(f0, f1, f2)` (R265): dropped when an index is out of range or a vertex is skipped, else tile 0 is
realized at first use and the triangle emitted with the legacy register's texture. -/
def State.emitTri (s : State) (f0 f1 f2 : BitVec 8) : State :=
  match s.vc[cacheIndex f0]?, s.vc[cacheIndex f1]?, s.vc[cacheIndex f2]? with
  | some a, some b, some c =>
    if skipped s.params.wEpsilon a || skipped s.params.wEpsilon b || skipped s.params.wEpsilon c then s
    else
      let s' := s.ensureRealized 0
      s'.emit (.drawTriangle s'.legacyTex (screen a) (screen b) (screen c))
  | _, _, _ => s

/-- TRI1 (R266). -/
def execTri1 (i0 i1 i2 : BitVec 8) (s : State) : Host.Outcome State Fault Refusal := .next (s.emitTri i0 i1 i2)

/-- TRI2 (R267): two independent triangles in field order. -/
def execTri2 (i0 i1 i2 i3 i4 i5 : BitVec 8) (s : State) : Host.Outcome State Fault Refusal :=
  .next ((s.emitTri i0 i1 i2).emitTri i3 i4 i5)

/-- QUAD (R268): its two triangles, as TRI2. -/
def execQuad (i0 i1 i2 i3 i4 i5 : BitVec 8) (s : State) : Host.Outcome State Fault Refusal :=
  .next ((s.emitTri i0 i1 i2).emitTri i3 i4 i5)

end Sys2Proof.Machine
end

