-- ==== Sys2Proof/Machine/Walker.lean ====
section
/-! DEFINITION. The control commands (spec/40_walker_control.md): END, DL and the no-op and sync family. The cursor is
already past the command when its meaning runs (R121). -/

namespace Sys2Proof.Machine

/-- END (R123). -/
def execEndList (s : State) : Host.Outcome State Fault Refusal := .next s.returnFromList

/-- Can a list called from the list being interpreted be entered: is its depth at most `MAX_DEPTH` (R120, R124)? The
depth of the current list is `TOP_DEPTH` plus the frames below it. -/
def State.depthLeft (s : State) : Bool := decide (Config.topDepth + s.stack.length ≤ Config.maxDepth)

/-- DL into a list at `base`: a jump marks the current list to end with it (R124). -/
def State.callList (s : State) (j : BitVec 1) (base : Nat) : State :=
  if j = 1#1 then { s with stack := markTail s.stack }.enter base else s.enter base

/-- DL into nothing: a jump still ends the current list (R124, R125). -/
def State.skipList (s : State) (j : BitVec 1) : State := if j = 1#1 then s.returnFromList else s

/-- DL (R124): call or jump. -/
def execDl (j : BitVec 1) (addr : Addr) (s : State) : Host.Outcome State Fault Refusal :=
  .next (match s.resolve addr with
    | none => s.skipList j
    | some base => if s.depthLeft then s.callList j base else s.skipList j)

/-- NOOP (R130): no effect. -/
def execNoop (s : State) : Host.Outcome State Fault Refusal := .next s

/-- SPNOOP (R131): no effect. -/
def execSpnoop (s : State) : Host.Outcome State Fault Refusal := .next s

/-- LOADSYNC (R132): no effect. -/
def execLoadsync (s : State) : Host.Outcome State Fault Refusal := .next s

/-- PIPESYNC (R133): no effect. -/
def execPipesync (s : State) : Host.Outcome State Fault Refusal := .next s

/-- TILESYNC (R134): no effect. -/
def execTilesync (s : State) : Host.Outcome State Fault Refusal := .next s

/-- FULLSYNC (R135): no effect; it does not end the list or the pass. -/
def execFullsync (s : State) : Host.Outcome State Fault Refusal := .next s

/-- An unassigned opcode (R128): no effect. -/
def execUnassigned (s : State) : Host.Outcome State Fault Refusal := .next s

end Sys2Proof.Machine
end

