-- ==== Sys2Proof/Machine/Dispatch.lean ====
section
/-! DEFINITION. Which meaning each command has: one arm per constructor of `Instr`, in the order of
spec/opcode_table.json. -/

namespace Sys2Proof.Machine

def exec (i : Instr) (s : State) : Host.Outcome State Fault Refusal :=
  match i with
  | .noop => Sys2Proof.Machine.execNoop s
  | .vtx n e addr => Sys2Proof.Machine.execVtx n e addr s
  | .tri1 i0 i1 i2 => Sys2Proof.Machine.execTri1 i0 i1 i2 s
  | .tri2 i0 i1 i2 i3 i4 i5 => Sys2Proof.Machine.execTri2 i0 i1 i2 i3 i4 i5 s
  | .quad i0 i1 i2 i3 i4 i5 => Sys2Proof.Machine.execQuad i0 i1 i2 i3 i4 i5 s
  | .texture scS scT => Sys2Proof.Machine.execTexture scS scT s
  | .popmtx => Sys2Proof.Machine.execPopmtx s
  | .mtx j l p addr => Sys2Proof.Machine.execMtx j l p addr s
  | .dl j addr => Sys2Proof.Machine.execDl j addr s
  | .endList => Sys2Proof.Machine.execEndList s
  | .spnoop => Sys2Proof.Machine.execSpnoop s
  | .rdphalf1 data => Sys2Proof.Machine.execRdphalf1 data s
  | .texrect lrx lry tile ulx uly => Sys2Proof.Machine.execTexrect lrx lry tile ulx uly s
  | .texrectm lrx lry tile ulx uly => Sys2Proof.Machine.execTexrectm lrx lry tile ulx uly s
  | .loadsync => Sys2Proof.Machine.execLoadsync s
  | .pipesync => Sys2Proof.Machine.execPipesync s
  | .tilesync => Sys2Proof.Machine.execTilesync s
  | .fullsync => Sys2Proof.Machine.execFullsync s
  | .loadtlut tile cnt => Sys2Proof.Machine.execLoadtlut tile cnt s
  | .rdphalf2 data => Sys2Proof.Machine.execRdphalf2 data s
  | .settilesize uls ult tile lrs lrt => Sys2Proof.Machine.execSettilesize uls ult tile lrs lrt s
  | .loadblock uls ult tile lrs dxt => Sys2Proof.Machine.execLoadblock uls ult tile lrs dxt s
  | .loadtile uls ult tile lrs lrt => Sys2Proof.Machine.execLoadtile uls ult tile lrs lrt s
  | .settile fmt siz line tmem tile palette cmt maskt shiftt cms masks shifts => Sys2Proof.Machine.execSettile fmt siz line tmem tile palette cmt maskt shiftt cms masks shifts s
  | .fillrect lrx lry ulx uly => Sys2Proof.Machine.execFillrect lrx lry ulx uly s
  | .setfillcolor fill => Sys2Proof.Machine.execSetfillcolor fill s
  | .setprimcolor r g b a => Sys2Proof.Machine.execSetprimcolor r g b a s
  | .setenvcolor r g b a => Sys2Proof.Machine.execSetenvcolor r g b a s
  | .settimg fmt siz wm1 addr => Sys2Proof.Machine.execSettimg fmt siz wm1 addr s

end Sys2Proof.Machine
end

