-- ==== Sys2Proof/Machine/Fetch.lean ====
section
/-! DEFINITION. Fetching an entry of the stream (spec/20_memory.md R66), and placing one where the next step fetches
(the load of a display list from outside the block, spec/60_exceptions.md R293). -/

namespace Sys2Proof.Machine

/-- The location of the entry at a frame's cursor (R44, R66). -/
def Frame.entryLoc (f : Frame) : Nat := f.base + 8 * f.cursor

/-- The entry at a frame's cursor, decoded (R66, R91). -/
def State.fetch (s : State) (f : Frame) : Except DecodeError Instr :=
  decode (Memory.entryBytes s.mem f.entryLoc)

/-- The frame the next step fetches from, as the load of a list makes it: the top frame when it can fetch, its cursor
back at 0 when it has reached `ITER_CAP`, and a new top-level list at `Config.loadBase` when no list is active. -/
def State.fetchFrame (s : State) : Frame :=
  match s.stack with
  | [] => ⟨Config.loadBase, 0, false⟩
  | f :: _ => if s.params.iterCap ≤ f.cursor then { f with cursor := 0 } else f

/-- Place the bytes of an entry and what follows it where the next step fetches (notes/assumptions/1.md). -/
def State.placeEntry (s : State) (bytes : List Byte) : State :=
  { s with
    mem := Memory.writeBytes s.mem s.fetchFrame.entryLoc bytes
    stack := s.fetchFrame :: s.stack.tail }

end Sys2Proof.Machine
end

