-- ==== Sys2Proof/Machine/Step.lean ====
section
/-! DEFINITION. One step of the block (spec/40_walker_control.md R121, R122, R128; spec/60_exceptions.md R292, R293). -/

namespace Sys2Proof.Machine

/-- One step. With no list active the block is between passes. Else, on the top frame: a list whose cursor has
reached `ITER_CAP` ends as if by END; otherwise the entry at the cursor is fetched, the cursor moved past it, and the
command run, an unassigned opcode having no effect. -/
def step (s : State) : Host.Outcome State Fault Refusal :=
  match s.stack with
  | [] => .next s.betweenPasses
  | f :: _ =>
    if s.params.iterCap ≤ f.cursor then .next s.returnFromList
    else
      match s.fetch f with
      | .ok i => exec i (s.advance 1)
      | .error _ => execUnassigned (s.advance 1)

/-- `s` with the entry whose bits are `w` (and two zero continuation entries) stored where the next step fetches, so
that the very next step runs it (notes/assumptions/1.md). Bits from `nbits` upward are 0. -/
def State.withFetchWord (s : State) (nbits w : Nat) : State :=
  s.placeEntry (cmdBytes (cmdOfTable nbits w) ++ List.replicate 16 0#8)

end Sys2Proof.Machine
end

