-- ==== Sys2Proof/WellFormed.lean ====
section
/-! DEFINITION. The checks on inputs (spec/30_encoding.md R93 to R111, R114; spec/93_implementation_defined.md,
section 2). Every term of `Instr` is an instruction the encoding can express and the machine runs: an operand has exactly the width of
its field, and R111 gives every value of every field a defined effect. What can be ill formed is a raw entry (an
opcode byte that is not assigned, an ignored bit that an assembler would have written 0), a value of an open
parameter, and a piece of the resolver. -/

namespace Sys2Proof

/-- The bits of `w0` and of `w1` that R97 to R109 mark "ignored": an assembler writes 0 there (R114) and the decoder
takes any value (R111). Fields the table names (`P` of MTX, `tile` of LOADTLUT) are operands and not in the masks. -/
def Opcode.ignored : Opcode → Word × Word
  | .noop | .spnoop | .loadsync | .pipesync | .tilesync | .fullsync | .endList | .popmtx => (0x00FFFFFF#32, 0xFFFFFFFF#32)
  | .vtx => (0x00F00F01#32, 0#32)
  | .tri1 => (0#32, 0xFFFFFFFF#32)
  | .tri2 | .quad => (0#32, 0xFF000000#32)
  | .texture | .rdphalf1 | .rdphalf2 | .setfillcolor | .setprimcolor | .setenvcolor => (0x00FFFFFF#32, 0#32)
  | .mtx => (0x00FFFFF8#32, 0#32)
  | .dl => (0x00FEFFFF#32, 0#32)
  | .texrect | .texrectm | .settilesize | .loadblock | .loadtile => (0#32, 0xF8000000#32)
  | .loadtlut => (0x00FFFFFF#32, 0xF8003FFF#32)
  | .settile => (0x00040000#32, 0xF8000000#32)
  | .fillrect => (0#32, 0xFF000000#32)
  | .settimg => (0x0007F000#32, 0#32)

/-- An entry of opcode `o` as an assembler writes it: 0 in every ignored bit (R111, R114). -/
def assembled (o : Opcode) (w0 w1 : Word) : Bool :=
  w0 &&& o.ignored.1 == 0#32 && w1 &&& o.ignored.2 == 0#32

/-- `ITER_CAP` is a positive integer, `W_EPSILON` a positive finite binary32 value (R7; 93, section 2). -/
def Params.wf (p : Params) : Bool :=
  decide (0 < p.iterCap) && decide (0 < p.wEpsilon.toNat) && decide (p.wEpsilon.toNat < 0x7F800000)

/-- A piece of the resolver covers at least one logical address and none above 2^32 - 1 (R60). -/
def Region.wf (r : Region) : Bool :=
  decide (0 < r.size) && decide (r.base + r.size ≤ 2 ^ 32)

end Sys2Proof
end

