-- ==== Sys2Proof/Safety.lean ====
section
/-! DEFINITION. What counts as a good state, in the terms the statements use: the invariants spec/10_state.md gives
(R21, R30, R32, R34, R38, R46) with the canonical form of memory, what no rule reads (R31, R34, R36, R37), what a
rounding is (R10), and the bound on the length of a pass (spec/60_exceptions.md R295). -/

namespace Sys2Proof.Machine

/-- The range of a tile's resolved width and height (R30). -/
def sizeInRange (n : Int) : Prop := -1022 ≤ n ∧ n ≤ 1024

/-- The invariant of the block at every command boundary. -/
structure State.Inv (s : State) : Prop where
  /-- `MVP = Compose(MV, PJ)` (R21). -/
  mvp_eq : s.mvp = compose s.mv s.pj
  /-- `LEGACY_TEX = TILE[0].tex` (R38). -/
  legacy_eq : s.legacyTex = (s.tileAt 0).tex
  /-- At most 33 frames on `STACK` (R46). -/
  stack_le : s.stack.length ≤ 33
  /-- The list being interpreted is not marked to end: `tail` is set only below a list that is running (R44, R124). -/
  top_open : ∀ f fs, s.stack = f :: fs → f.tail = false
  /-- Every resolved width and height in its range (R30). -/
  sizes : ∀ t : Fin 8, sizeInRange (s.tileAt t).width ∧ sizeInRange (s.tileAt t).height
  /-- No two tiles hold the same handle (R32, R51). -/
  handles : s.held.Nodup
  /-- `TIMG.stride` is 1 to 4096 (R34). -/
  stride : 1 ≤ s.timg.stride.toNat ∧ s.timg.stride.toNat ≤ 4096
  /-- Memory is in its canonical form. -/
  mem_wf : Memory.wf s.mem
  /-- So is the memory of every pass to come. -/
  requests_wf : ∀ p ∈ s.requests, Memory.wf p.mem
  /-- The open parameters are in their domains (R7). -/
  params_wf : s.params.wf = true

/-- A tile descriptor without the fields that no rule reads (R31): the stored ones, and the bounds, which only the
command that writes them reads. -/
def Tile.erase (d : Tile) : Tile :=
  { d with
    line := 0#9, tmem := 0#9, cmt := 0#2, cms := 0#2, maskt := 0#4, masks := 0#4, shiftt := 0#4, shifts := 0#4
    uls := 0#12, ult := 0#12, lrs := 0#12, lrt := 0#12 }

/-- A state without what no rule reads: `PRIM` and `ENV` (R36), `TIMG.fmt`, `.siz` and `.stride` (R34), the unread
tile fields (R31), and the continuation registers, never observable across commands (R37). -/
def State.erase (s : State) : State :=
  { s with
    prim := ⟨0#8, 0#8, 0#8, 0#8⟩
    env := ⟨0#8, 0#8, 0#8, 0#8⟩
    timg := { s.timg with fmt := 0#3, siz := 0#2, stride := 1#13 }
    tile := s.tile.map Tile.erase
    cont0 := 0#32
    cont1 := 0#32 }

/-- The tile whose descriptor a command may write (R179 to R185): the one its operand selects, tile 0 for triangles. -/
def Instr.tileWritten : Instr → Option (Fin 8)
  | .settile _ _ _ _ tile _ _ _ _ _ _ _ => some tile.toFin
  | .settilesize _ _ tile _ _ | .loadtile _ _ tile _ _ | .loadblock _ _ tile _ _ => some tile.toFin
  | .texrect _ _ tile _ _ | .texrectm _ _ tile _ _ => some tile.toFin
  | .tri1 _ _ _ | .tri2 _ _ _ _ _ _ | .quad _ _ _ _ _ _ => some 0
  | .noop | .vtx _ _ _ | .texture _ _ | .popmtx | .mtx _ _ _ _ | .dl _ _ | .endList | .spnoop | .rdphalf1 _ => none
  | .loadsync | .pipesync | .tilesync | .fullsync | .loadtlut _ _ | .rdphalf2 _ | .fillrect _ _ _ _ => none
  | .setfillcolor _ | .setprimcolor _ _ _ _ | .setenvcolor _ _ _ _ | .settimg _ _ _ _ => none

/-- The commands that may write a tile's descriptor (R286). -/
def tileWriters : List Opcode :=
  [.settile, .settilesize, .loadtile, .loadblock, .texrect, .texrectm, .tri1, .tri2, .quad]

/-- The commands that may create or release a texture (R184, R186). -/
def textureWriters : List Opcode := [.settilesize, .texrect, .texrectm, .tri1, .tri2, .quad]

/-- The commands that may emit an event (R50). -/
def emitters : List Opcode := [.settilesize, .fillrect, .texrect, .texrectm, .tri1, .tri2, .quad]

/-- The bytes of the 29 assigned opcodes, as R96 lists them. -/
def assignedBytes : List Byte :=
  [0x00#8, 0x01#8, 0x05#8, 0x06#8, 0x07#8, 0xD7#8, 0xD8#8, 0xDA#8, 0xDE#8, 0xDF#8, 0xE0#8, 0xE1#8, 0xE4#8, 0xE5#8, 0xE6#8,
   0xE7#8, 0xE8#8, 0xE9#8, 0xF0#8, 0xF1#8, 0xF2#8, 0xF3#8, 0xF4#8, 0xF5#8, 0xF6#8, 0xF7#8, 0xFA#8, 0xFB#8, 0xFD#8]

/-- A float value the spec's exactness claims speak of: finite and no negative zero (R143, R144). -/
def plainFloat (a : F32) : Prop := fisFinite a = true ∧ a ≠ 0x80000000#32

/-- `r` is `num / den` rounded once to nearest, ties to even (R10): no NaN; of the sign of a fraction other than zero; an
infinity exactly from the midpoint above the largest finite value upward (PRESUMED, notes/assumptions/10.md); and, when
finite, at least as near to the fraction as every finite value, its last bit 0 where another value is as near. -/
structure RoundsTo (r : F32) (num : Int) (den : Nat) : Prop where
  not_nan : fisNaN r = false
  sign : num ≠ 0 → fsign r = decide (num < 0)
  overflow : fisInf r = true ↔ (2 ^ 25 - 1) * 2 ^ 252 * den ≤ num.natAbs * 2 ^ 149
  nearest : fisFinite r = true → ∀ c : F32, fisFinite c = true →
    (fval r * den - num * 2 ^ 149).natAbs ≤ (fval c * den - num * 2 ^ 149).natAbs
  even : fisFinite r = true → ∀ c : F32, fisFinite c = true → fval c ≠ fval r →
    (fval r * den - num * 2 ^ 149).natAbs = (fval c * den - num * 2 ^ 149).natAbs → fmagBits r % 2 = 0

/-- How many steps a list entered afresh can take while `levels` nested levels are left to it: `cap` entries, each
with a whole sub-list, and the step that ends it. -/
def listBound (cap : Nat) : Nat → Nat
  | 0 => 0
  | levels + 1 => cap * (1 + listBound cap levels) + 1

/-- How many steps a pass can take (R295; notes/assumptions/13.md): 33 levels. -/
def passBound (cap : Nat) : Nat := listBound cap 33

end Sys2Proof.Machine
end

