-- ==== Sys2Proof/Certificates/Slice0/Obligations.lean ====
section
/-! DEFINITION. The statements about PM-VTXTEX. Each name says what its statement states; its docstring names the rules
of spec/ it formalises and, where one stands in it, the model's own choice with its log entry. -/

open Sys2Proof Sys2Proof.Machine

/-! ## Encoding -/

/-- R91, R97 to R109: decoding the bytes of an encoded command gives the command back, whatever follows them in the
stream. -/
def Obligations.DecodeGivesBackEveryEncodedCommand : Prop :=
  ∀ (i : Instr) (rest : List Byte), decode (encodeBytes i ++ rest) = .ok i

/-- R97 to R109, R114: an entry with 0 in every ignored bit is the encoding of the command it decodes to. -/
def Obligations.EncodeGivesBackEveryAssembledEntry : Prop :=
  ∀ (w0 w1 : Word) (i : Instr), decodeEntry w0 w1 = .ok i → assembled i.opcode w0 w1 = true → encode i = (w0, w1)

/-- R111: "A bit that rules R97 to R109 mark "ignored" may hold any value; the command does the same thing." -/
def Obligations.IgnoredBitsDoNotChangeTheCommand : Prop :=
  ∀ (o : Opcode) (w0 w1 x0 x1 : Word), Opcode.ofCode (field w0 24 8) = some o →
    decodeEntry (w0 ^^^ (x0 &&& o.ignored.1)) (w1 ^^^ (x1 &&& o.ignored.2)) = decodeEntry w0 w1

/-- R91, R96: the top byte alone decides which command an entry is; the 29 bytes of R96 are assigned and the other 227
are rejected by name. -/
def Obligations.OpcodeByteAloneDecidesTheCommand : Prop :=
  (∀ w0 w1 : Word, field w0 24 8 ∉ assignedBytes → decodeEntry w0 w1 = .error (.unassigned (field w0 24 8))) ∧
  (∀ w0 w1 : Word, field w0 24 8 ∈ assignedBytes →
    ∃ i : Instr, decodeEntry w0 w1 = .ok i ∧ i.opcode.code = field w0 24 8) ∧
  assignedBytes.Nodup ∧ assignedBytes.length = 29

/-- R97, R99, R101, R103, R109: words the spec writes out decode to the commands they stand for. -/
def Obligations.SpecWordsDecodeAsWritten : Prop :=
  decodeEntry 0xDA000006#32 0x00002000#32 = .ok (.mtx 1#1 1#1 0#1 0x2000#32) ∧
  decodeEntry 0x010FF0FE#32 0x00003000#32 = .ok (.vtx 255#8 127#7 0x3000#32) ∧
  decodeEntry 0xDE010000#32 0x00001200#32 = .ok (.dl 1#1 0x1200#32) ∧
  decodeEntry 0xF5480200#32 0x00000000#32 =
    .ok (.settile 2#3 1#2 1#9 0#9 0#3 0#4 0#2 0#4 0#4 0#2 0#4 0#4) ∧
  decodeEntry 0xF0000000#32 0x0700C000#32 = .ok (.loadtlut 7#3 3#10) ∧
  decodeEntry 0xE40A80D0#32 0x00028050#32 = .ok (.texrect 168#12 208#12 0#3 40#12 80#12) ∧
  decodeEntry 0x06000204#32 0x00000406#32 = .ok (.tri2 0#8 2#8 4#8 0#8 4#8 6#8)

/-! ## The walker -/

/-- R66, R121: when the list has not reached its cap and the 8 bytes at the cursor decode to a command, the step is the
command's meaning on the state with the cursor moved past it. -/
def Obligations.StepRunsTheDecodedCommand : Prop :=
  ∀ (s : State) (f : Frame) (fs : List Frame) (i : Instr),
    s.stack = f :: fs → f.cursor < s.params.iterCap →
    decode (Memory.entryBytes s.mem (f.base + 8 * f.cursor)) = .ok i →
    step s = exec i { s with stack := { f with cursor := f.cursor + 1 } :: fs }

/-- R110: an entry whose first byte is none of the 29 changes nothing but the cursor. -/
def Obligations.UnassignedOpcodeOnlyMovesTheCursor : Prop :=
  ∀ (s : State) (f : Frame) (fs : List Frame),
    s.stack = f :: fs → f.cursor < s.params.iterCap →
    Memory.byte s.mem (f.base + 8 * f.cursor) ∉ assignedBytes →
    step s = .next { s with stack := { f with cursor := f.cursor + 1 } :: fs }

/-- R121, R122: a list whose cursor has reached the cap at the head of a step ends exactly as END ends it, fetching
nothing. -/
def Obligations.IterationCapEndsTheListAsEndDoes : Prop :=
  ∀ (s : State) (f : Frame) (fs : List Frame), s.stack = f :: fs → s.params.iterCap ≤ f.cursor →
    step s = .next { s with stack := fs.dropWhile Frame.tail } ∧ step s = exec .endList s

/-- R121, R123: END pops the list it is in and every caller below it that is marked `tail`, and nothing else. -/
def Obligations.EndPopsTheListAndItsTailCallers : Prop :=
  ∀ (s : State) (f : Frame) (marked rest : List Frame),
    s.stack = f :: (marked ++ rest) → (∀ g ∈ marked, g.tail = true) → (∀ g, rest.head? = some g → g.tail = false) →
    exec .endList s = .next { s with stack := rest }

/-- R124, R125: DL in each of its cases, for a call (`J = 0`) and a jump (`J = 1`). -/
def Obligations.DlEntersOrSkipsTheSubList : Prop :=
  ∀ (s : State) (f : Frame) (fs : List Frame) (addr : Addr), s.stack = f :: fs →
    (∀ base, s.resolve addr = some base → (f :: fs).length ≤ 32 →
      exec (.dl 0#1 addr) s = .next { s with stack := ⟨base, 0, false⟩ :: f :: fs } ∧
      exec (.dl 1#1 addr) s = .next { s with stack := ⟨base, 0, false⟩ :: { f with tail := true } :: fs }) ∧
    (s.resolve addr = none ∨ 32 < (f :: fs).length →
      exec (.dl 0#1 addr) s = .next s ∧
      exec (.dl 1#1 addr) s = .next { s with stack := fs.dropWhile Frame.tail })

/-- R46: "the stack never holds more than `MAX_DEPTH - TOP_DEPTH + 1 = 33` frames". -/
def Obligations.StackNeverHoldsMoreThan33Frames : Prop :=
  State.reset.stack.length ≤ 33 ∧
  ∀ s t : State, s.stack.length ≤ 33 → step s = .next t → t.stack.length ≤ 33

/-- R123 to R125, R127: a sub-list that is just END, in two steps of the machine. After a call control is at the entry
after the DL; after a jump the commands after the DL are skipped and control is where the caller's own END would have
left it. -/
def Obligations.CallsComeBackAndJumpsDoNot : Prop :=
  ∀ (s : State) (f : Frame) (fs : List Frame) (j : BitVec 1) (addr : Addr) (base : Nat),
    s.stack = f :: fs → f.tail = false → fs.length < 32 → f.cursor < s.params.iterCap →
    decode (Memory.entryBytes s.mem (f.base + 8 * f.cursor)) = .ok (.dl j addr) →
    s.resolve addr = some base → decode (Memory.entryBytes s.mem base) = .ok .endList →
    Host.Core.run Sys2Proof.core 2 s = .next { s with
      stack := if j = 0#1 then { f with cursor := f.cursor + 1 } :: fs else fs.dropWhile Frame.tail }

/-- R295: every pass terminates, within a bound that depends on `ITER_CAP` alone. The bound counts the model's steps,
which take one more for a list that ends by its cap (the model's reading, notes/assumptions/13.md). -/
def Obligations.EveryPassTerminates : Prop :=
  ∀ (s : State) (base : Nat), s.stack = [⟨base, 0, false⟩] →
    ∃ (n : Nat) (t : State), n ≤ passBound s.params.iterCap ∧
      Host.Core.run Sys2Proof.core n s = .next t ∧ t.stack = []

/-- R280: "The block raises no exception, trap or fault, under any input." -/
def Obligations.EveryStepAnswersANextState : Prop :=
  (∀ s : State, ∃ t, step s = .next t) ∧ ∀ (i : Instr) (s : State), ∃ t, exec i s = .next t

/-- R126, R130 to R135, R238, R239: the no-op and sync commands and the continuation tags met as commands change
nothing. -/
def Obligations.NoOpFamilyChangesNothing : Prop :=
  ∀ (s : State) (data : BitVec 32),
    exec .noop s = .next s ∧ exec .spnoop s = .next s ∧ exec .loadsync s = .next s ∧ exec .pipesync s = .next s ∧
    exec .tilesync s = .next s ∧ exec .fullsync s = .next s ∧ exec (.rdphalf1 data) s = .next s ∧
    exec (.rdphalf2 data) s = .next s

/-! ## The whole machine -/

/-- R70, R75: during a pass no step and no command changes a byte of memory or the resolver. That they are constant is
the spec's reading (D37). That the open parameters stay, and that nothing the host has queued and no frame reset is
counted, is said of the model's own fields: `params` (DESIGN CHOICE, notes/assumptions/4.md), `requests` (DEDUCED,
notes/assumptions/14.md) and `frames` (DEDUCED, notes/assumptions/3.md). -/
def Obligations.MemoryAndResolverAreConstantDuringAPass : Prop :=
  ∀ s t : State, ((s.stack ≠ [] ∧ step s = .next t) ∨ ∃ i : Instr, exec i s = .next t) →
    (∀ a : Nat, Memory.byte t.mem a = Memory.byte s.mem a) ∧ (∀ a : Addr, t.resolve a = s.resolve a) ∧
    t.mem = s.mem ∧ t.resolver = s.resolver ∧ t.params = s.params ∧ t.requests = s.requests ∧ t.frames = s.frames

/-- R50: the trace is only ever appended to; the block never clears it. -/
def Obligations.TraceOnlyGrows : Prop :=
  ∀ s t : State, step s = .next t → ∃ es : List Event, t.out = s.out ++ es

/-- R21, R30, R32, R34, R38, R44, R46: every step keeps the invariant. Its clauses on memory's canonical form are
the model's (notes/assumptions/6.md), and its clause on `MVP` rests, for a NaN element, on the model's choice of NaN bits
(DESIGN CHOICE, notes/assumptions/8.md). -/
def Obligations.EveryStepKeepsTheInvariant : Prop :=
  ∀ s t : State, s.Inv → step s = .next t → t.Inv

/-- The invariant holds right after reset. It reads the reset values the model chose for `TIMG.stride`, the open
parameters and memory (DESIGN CHOICE, notes/assumptions/2.md, 4.md, 6.md). -/
def Obligations.ResetMeetsTheInvariant : Prop := State.reset.Inv

/-- R21: `MVP = Compose(MV, PJ)` after reset and after every step, no command but MTX and POPMTX writes a matrix, and the
frame reset leaves all three matrices the identity, which is exactly `Compose(identity, identity)` (R21 marks that last
fact derived). That the equality holds bit for bit where an element is a NaN rests on the model's choice of NaN bits, a
function of the operation and its operands (DESIGN CHOICE, notes/assumptions/8.md). -/
def Obligations.MvpIsAlwaysTheProduct : Prop :=
  State.reset.mvp = compose State.reset.mv State.reset.pj ∧ compose identity identity = identity ∧
  (∀ s : State, s.frameReset.mv = identity ∧ s.frameReset.pj = identity ∧ s.frameReset.mvp = identity) ∧
  (∀ s t : State, s.mvp = compose s.mv s.pj → step s = .next t → t.mvp = compose t.mv t.pj) ∧
  ∀ (i : Instr) (s t : State), exec i s = .next t → i.opcode ∉ [.mtx, .popmtx] →
    t.mv = s.mv ∧ t.pj = s.pj ∧ t.mvp = s.mvp

/-- R25, R286: each register is written only by its dedicated commands. The clause on `answers` and `draws` is about the
model's own fields (DESIGN CHOICE, notes/assumptions/7.md). -/
def Obligations.RegistersAreWrittenOnlyByTheirCommands : Prop :=
  ∀ (i : Instr) (s t : State), exec i s = .next t →
    (i.opcode ≠ .vtx → t.vc = s.vc) ∧
    (i.opcode ≠ .texture → t.tscaleS = s.tscaleS ∧ t.tscaleT = s.tscaleT) ∧
    (i.opcode ≠ .settimg → t.timg = s.timg) ∧
    (i.opcode ≠ .loadtlut → t.tlut = s.tlut) ∧
    (i.opcode ≠ .setprimcolor → t.prim = s.prim) ∧
    (i.opcode ≠ .setenvcolor → t.env = s.env) ∧
    (i.opcode ≠ .setfillcolor → t.fill = s.fill) ∧
    (i.opcode ∉ [.texrect, .texrectm] → t.cont0 = s.cont0 ∧ t.cont1 = s.cont1) ∧
    (i.opcode ∉ [.endList, .dl, .texrect, .texrectm] → t.stack = s.stack) ∧
    (i.opcode ∉ textureWriters → t.legacyTex = s.legacyTex ∧ t.answers = s.answers ∧ t.draws = s.draws) ∧
    (i.opcode ∉ emitters → t.out = s.out) ∧
    (i.opcode ∉ tileWriters → t.tile = s.tile)

/-- R30, R179 to R187: a command writes no tile's descriptor but the one it selects (tile 0 for triangles). -/
def Obligations.OtherTilesAreUntouched : Prop :=
  ∀ (i : Instr) (s t : State) (k : Fin 8), exec i s = .next t → Instr.tileWritten i ≠ some k →
    t.tileAt k = s.tileAt k

/-- R31, R34, R36, R37: what no rule reads has no influence: two states that agree on everything else step to states
that agree on everything else. -/
def Obligations.UnreadRegistersHaveNoInfluence : Prop :=
  ∀ s s' t : State, s.erase = s'.erase → step s = .next t →
    ∃ t' : State, step s' = .next t' ∧ t.erase = t'.erase

/-- R51: the handle the adapter answers differs from every handle held. -/
def Obligations.AnsweredHandleIsHeldByNoTile : Prop :=
  ∀ s : State, s.nextHandle ∉ s.held

/-! ## Reset and the pass -/

/-- R22, R23, R33, R37, R38, R44, R303: the values the spec states for reset. -/
def Obligations.ResetHoldsTheStatedValues : Prop :=
  (∀ i j : Fin 4, State.reset.mv[i][j] = (if i = j then 0x3F800000#32 else 0#32) ∧
    State.reset.pj[i][j] = (if i = j then 0x3F800000#32 else 0#32) ∧
    State.reset.mvp[i][j] = (if i = j then 0x3F800000#32 else 0#32)) ∧
  State.reset.tscaleS = 0xFFFF#16 ∧ State.reset.tscaleT = 0xFFFF#16 ∧
  State.reset.cont0 = 0#32 ∧ State.reset.cont1 = 0#32 ∧
  (∀ k : Fin 8, State.reset.tileAt k = Tile.zero) ∧ State.reset.legacyTex = none ∧ State.reset.run = .done

/-- R120, R293, R300: the start of a pass, as one step of the block between passes: the textures held are released in
ascending tile order, the registers the reset list names take their values, and the top-level list is entered, on the
memory and the resolver of the new pass; an address that does not resolve leaves the pass done at once. That this is one
step and takes the pass from a queue is the model's reading (DEDUCED, notes/assumptions/14.md), and that `params`,
`answers` and `draws` stay is said of its own fields (DESIGN CHOICE, notes/assumptions/4.md, 7.md). -/
def Obligations.PassStartResetsTheFrame : Prop :=
  ∀ (s : State) (p : PassRequest) (rest : List PassRequest), s.stack = [] → s.requests = p :: rest →
    ∃ t : State, step s = .next t ∧
      t.out = s.out ++ s.held.map Event.releaseTexture ∧
      (∀ k : Fin 8, t.tileAt k = Tile.zero) ∧ t.legacyTex = none ∧
      t.mv = identity ∧ t.pj = identity ∧ t.mvp = identity ∧ t.tscaleS = 0xFFFF#16 ∧ t.tscaleT = 0xFFFF#16 ∧
      t.cont0 = 0#32 ∧ t.cont1 = 0#32 ∧ t.mem = p.mem ∧ t.resolver = p.resolver ∧ t.params = s.params ∧
      t.requests = rest ∧ t.answers = s.answers ∧ t.draws = s.draws ∧
      (t.resolve p.top = none → t.stack = []) ∧
      (∀ base, t.resolve p.top = some base → t.stack = [⟨base, 0, false⟩])

/-- R292: between passes, with no pass asked for, the block holds its state. -/
def Obligations.IdleBlockHoldsItsState : Prop :=
  ∀ s : State, s.stack = [] → s.requests = [] → step s = .next s

/-- The model's own (notes/assumptions/1.md): the next step after a load runs exactly the command loaded. -/
def Obligations.LoadedCommandIsTheNextToRun : Prop :=
  ∀ (s : State) (i : Instr), 0 < s.params.iterCap →
    step (s.withFetchWord 64 (encodeCmd i).toNat) = exec i ((s.withFetchWord 64 (encodeCmd i).toNat).advance 1)

/-! ## Float arithmetic -/

/-- R10: every operation is rounded once to nearest, ties to even. `roundRatio` rounds a fraction of either sign; `i2f`
rounds its integer; and on finite operands `fadd`, `fsub`, `fmul` and `fdiv` (by a value other than zero) are the
rounding of the exact sum, difference, product and quotient, a product's and a quotient's sign being the operands' signs
combined. Values are in units of 2^-149. The overflow threshold in `RoundsTo`, and the sign of an exact zero sum or
difference, are the model's, from IEEE 754 itself (PRESUMED, notes/assumptions/10.md). -/
def Obligations.RoundingIsToNearestTiesToEven : Prop :=
  (∀ (neg : Bool) (num den : Nat), 0 < den →
    fsign (roundRatio neg num den) = neg ∧
    RoundsTo (roundRatio neg num den) (if neg then -(num : Int) else num) den) ∧
  (∀ n : Int, RoundsTo (i2f n) n 1) ∧
  ∀ a b : F32, fisFinite a = true → fisFinite b = true →
    RoundsTo (fadd a b) (fval a + fval b) (2 ^ 149) ∧
    (fval a + fval b = 0 → fsign (fadd a b) = (fsign a && fsign b)) ∧
    RoundsTo (fsub a b) (fval a - fval b) (2 ^ 149) ∧
    (fval a - fval b = 0 → fsign (fsub a b) = (fsign a && !fsign b)) ∧
    RoundsTo (fmul a b) (fval a * fval b) (2 ^ 298) ∧ fsign (fmul a b) = (fsign a != fsign b) ∧
    (fval b ≠ 0 →
      RoundsTo (fdiv a b) (fval a * (fval b).sign) (fmag b) ∧ fsign (fdiv a b) = (fsign a != fsign b))

/-- R10, R14, R150, R230, R236: `i2f` is exact for |n| ≤ 2^24; a 10.2 field's pixel coordinate is exactly a quarter of
the field; the signed halves of the continuation words are exactly a 32nd (S10.5) and a 1024th (S5.10); a scale register
is exactly a 65536th; a texture coordinate is the one rounding of `raw·scale/(65536·32)`, and under the scale `0x8000`
exactly `raw/64`. Values are in units of 2^-149; the overflow threshold in `RoundsTo` is PRESUMED
(notes/assumptions/10.md). -/
def Obligations.FixedPointInputsConvertExactly : Prop :=
  (∀ n : Int, n.natAbs ≤ 2 ^ 24 → fisFinite (i2f n) = true ∧ fval (i2f n) = n * 2 ^ 149) ∧
  (∀ f : BitVec 12, fisFinite (px f) = true ∧ 4 * fval (px f) = f.toNat * 2 ^ 149) ∧
  (∀ h : Half,
    fisFinite (fdiv (i2f h.toInt) (i2f 32)) = true ∧ 32 * fval (fdiv (i2f h.toInt) (i2f 32)) = h.toInt * 2 ^ 149 ∧
    fisFinite (fdiv (i2f h.toInt) (i2f 1024)) = true ∧
    1024 * fval (fdiv (i2f h.toInt) (i2f 1024)) = h.toInt * 2 ^ 149) ∧
  (∀ scale : BitVec 16, fisFinite (fdiv (i2f scale.toNat) (i2f 65536)) = true ∧
    65536 * fval (fdiv (i2f scale.toNat) (i2f 65536)) = scale.toNat * 2 ^ 149) ∧
  (∀ (raw : Half) (scale : BitVec 16), fisFinite (texCoord raw.toInt scale) = true ∧
    RoundsTo (texCoord raw.toInt scale) (raw.toInt * scale.toNat) (65536 * 32)) ∧
  ∀ raw : Half, 64 * fval (texCoord raw.toInt 0x8000#16) = raw.toInt * 2 ^ 149

/-- R141: an element of a wire matrix is finite, and the value nearest to `ip + fp/65536`, ties to even. (The overflow
threshold in `RoundsTo` is PRESUMED, notes/assumptions/10.md.) -/
def Obligations.WireElementIsNearestToItsFixedPointValue : Prop :=
  ∀ ip fp : Half, fisFinite (wireElement ip fp) = true ∧
    RoundsTo (wireElement ip fp) (ip.toInt * 65536 + fp.toNat) 65536

/-! ## Matrices and vertices -/

/-- R142, R143: the product of two matrices element by element, its sum in ascending `k`; `Compose` as that product,
modelview on the left; and MTX in its four forms, the loaded matrix on the left of the old target, and on an address that
does not resolve; the push bit has no effect. -/
def Obligations.MtxLoadsOrMultipliesItsTarget : Prop :=
  (∀ (a b : Mat) (i j : Fin 4), (matMul a b)[i][j] =
    fadd (fadd (fadd (fmul a[i][0] b[0][j]) (fmul a[i][1] b[1][j])) (fmul a[i][2] b[2][j])) (fmul a[i][3] b[3][j])) ∧
  (∀ mv pj : Mat, compose mv pj = matMul mv pj) ∧
  ∀ (s : State) (p : BitVec 1) (addr : Addr),
    (s.resolve addr = none → ∀ j l : BitVec 1, exec (.mtx j l p addr) s = .next s) ∧
    ∀ loc, s.resolve addr = some loc →
      exec (.mtx 0#1 1#1 p addr) s =
        .next { s with mv := fromWire s.mem loc, mvp := compose (fromWire s.mem loc) s.pj } ∧
      exec (.mtx 0#1 0#1 p addr) s =
        .next { s with
          mv := matMul (fromWire s.mem loc) s.mv, mvp := compose (matMul (fromWire s.mem loc) s.mv) s.pj } ∧
      exec (.mtx 1#1 1#1 p addr) s =
        .next { s with pj := fromWire s.mem loc, mvp := compose s.mv (fromWire s.mem loc) } ∧
      exec (.mtx 1#1 0#1 p addr) s =
        .next { s with
          pj := matMul (fromWire s.mem loc) s.pj, mvp := compose s.mv (matMul (fromWire s.mem loc) s.pj) }

/-- R141: where the two planes of a wire matrix lie, element by element, and their byte order (R64). -/
def Obligations.WireMatrixPlanesAreReadRowMajor : Prop :=
  ∀ (m : Memory) (loc : Nat) (i j : Fin 4), ∃ ip fp : Half,
    (fromWire m loc)[i][j] = wireElement ip fp ∧
    ip.toNat = 256 * (Memory.byte m (loc + 8 * i + 2 * j)).toNat + (Memory.byte m (loc + 8 * i + 2 * j + 1)).toNat ∧
    fp.toNat =
      256 * (Memory.byte m (loc + 32 + 8 * i + 2 * j)).toNat + (Memory.byte m (loc + 32 + 8 * i + 2 * j + 1)).toNat

/-- R143 (v), R144: the identity is neutral on either side of a product whose other factor has only finite elements and
no negative zero. (What an infinite element or a negative zero gives: notes/assumptions/12.md.) -/
def Obligations.IdentityIsNeutralForProducts : Prop :=
  ∀ m : Mat, (∀ i j : Fin 4, plainFloat m[i][j]) → matMul identity m = m ∧ matMul m identity = m

/-- R144: POPMTX resets the modelview and recomposes; over a projection of finite elements without negative zeros, `MVP`
is then the projection itself. -/
def Obligations.PopmtxLeavesTheProjection : Prop :=
  ∀ s : State,
    exec .popmtx s = .next { s with mv := identity, mvp := matMul identity s.pj } ∧
    ((∀ i j : Fin 4, plainFloat s.pj[i][j]) → exec .popmtx s = .next { s with mv := identity, mvp := s.pj })

/-- R148: under the identity the clip position of a vertex is its position, with `w = 1.0`. -/
def Obligations.IdentityClipIsThePosition : Prop :=
  ∀ x y z : Half,
    clip identity (i2f x.toInt) (i2f y.toInt) (i2f z.toInt) 0 = i2f x.toInt ∧
    clip identity (i2f x.toInt) (i2f y.toInt) (i2f z.toInt) 1 = i2f y.toInt ∧
    clip identity (i2f x.toInt) (i2f y.toInt) (i2f z.toInt) 2 = i2f z.toInt ∧
    clip identity (i2f x.toInt) (i2f y.toInt) (i2f z.toInt) 3 = 0x3F800000#32

/-- R145 to R151: VTX, entry by entry. Source vertex `i` goes to index `e - n + i`; an index outside [0,64) is skipped
and not wrapped; a vertex whose own address `addr + 16·i` does not resolve leaves its entry; nothing else changes. An
entry loaded from `loc` is written whole from the signed big-endian halves at bytes 0, 2, 4 (position), 8 and 10 (texture
coordinates) and the bytes 12 to 15 (colour): clip components 0 to 3 in `x`, `y`, `z`, `w`, each the position with a
fourth component 1 on the left of `MVP`, summed in the order written; `u` from `s` under `TSCALE_S`, `v` from `t` under
`TSCALE_T`. -/
def Obligations.VtxLoadsEachEntryInRange : Prop :=
  ∀ (s : State) (n : BitVec 8) (e : BitVec 7) (addr : Addr),
    let half := fun (loc : Nat) (h : Half) =>
      h.toNat = 256 * (Memory.byte s.mem loc).toNat + (Memory.byte s.mem (loc + 1)).toNat
    let comp := fun (x y z : Half) (j : Fin 4) =>
      fadd (fadd (fadd (fmul (i2f x.toInt) s.mvp[0][j]) (fmul (i2f y.toInt) s.mvp[1][j]))
        (fmul (i2f z.toInt) s.mvp[2][j])) s.mvp[3][j]
    let tex := fun (raw : Half) (scale : BitVec 16) =>
      fdiv (fmul (i2f raw.toInt) (fdiv (i2f scale.toNat) (i2f 65536))) (i2f 32)
    ∃ t : State, exec (.vtx n e addr) s = .next t ∧ t = { s with vc := t.vc } ∧
      ∀ idx : Fin 64,
        (∀ (i loc : Nat), i < n.toNat → (e.toNat : Int) - n.toNat + i = idx.val →
          s.resolve (addr + BitVec.ofNat 32 (16 * i)) = some loc →
          ∃ x y z ss tt : Half,
            half loc x ∧ half (loc + 2) y ∧ half (loc + 4) z ∧ half (loc + 8) ss ∧ half (loc + 10) tt ∧
            t.vc[idx] =
              { x := comp x y z 0, y := comp x y z 1, z := comp x y z 2, w := comp x y z 3
                u := tex ss s.tscaleS, v := tex tt s.tscaleT
                c := ⟨Memory.byte s.mem (loc + 12), Memory.byte s.mem (loc + 13), Memory.byte s.mem (loc + 14),
                  Memory.byte s.mem (loc + 15)⟩ }) ∧
        ((∀ i : Nat, i < n.toNat → (e.toNat : Int) - n.toNat + i = idx.val →
          s.resolve (addr + BitVec.ofNat 32 (16 * i)) = none) → t.vc[idx] = s.vc[idx])

/-- R152: TEXTURE writes the two scale registers, and nothing else. -/
def Obligations.TextureWritesTheScales : Prop :=
  ∀ (s : State) (a b : BitVec 16), exec (.texture a b) s = .next { s with tscaleS := a, tscaleT := b }

/-! ## Tiles and textures -/

/-- R178: SETTIMG records the four registers, `stride` the field plus one, and touches no tile. -/
def Obligations.SettimgRecordsTheImage : Prop :=
  ∀ (s : State) (fmt : BitVec 3) (siz : BitVec 2) (wm1 : BitVec 12) (addr : Addr),
    ∃ t : State, exec (.settimg fmt siz wm1 addr) s = .next t ∧ t = { s with timg := t.timg } ∧
      t.timg.addr = addr ∧ t.timg.fmt = fmt ∧ t.timg.siz = siz ∧ t.timg.stride.toNat = wm1.toNat + 1

/-- R179: SETTILE writes its eleven fields of the one tile, and not its bounds, source, size or texture. -/
def Obligations.SettileWritesItsFields : Prop :=
  ∀ (s : State) (fmt : BitVec 3) (siz : BitVec 2) (line tmem : BitVec 9) (tile : BitVec 3) (palette : BitVec 4)
    (cmt : BitVec 2) (maskt shiftt : BitVec 4) (cms : BitVec 2) (masks shifts : BitVec 4),
    ∃ t : State, exec (.settile fmt siz line tmem tile palette cmt maskt shiftt cms masks shifts) s = .next t ∧
      t = { s with tile := t.tile } ∧
      (∀ k : Fin 8, k.val ≠ tile.toNat → t.tileAt k = s.tileAt k) ∧
      ∀ k : Fin 8, k.val = tile.toNat →
        t.tileAt k =
          { fmt := fmt, siz := siz, line := line, tmem := tmem, palette := palette, cmt := cmt, cms := cms
            maskt := maskt, masks := masks, shiftt := shiftt, shifts := shifts
            uls := (s.tileAt k).uls, ult := (s.tileAt k).ult, lrs := (s.tileAt k).lrs, lrt := (s.tileAt k).lrt
            src := (s.tileAt k).src, width := (s.tileAt k).width, height := (s.tileAt k).height
            tex := (s.tileAt k).tex }

/-- R181, R182: LOADTILE and LOADBLOCK bind the current image to the one tile, whatever their coordinates; an address that
does not resolve unbinds it; nothing is emitted and no texture touched. -/
def Obligations.LoadsBindTheCurrentImage : Prop :=
  ∀ (s : State) (a b c d : BitVec 12) (tile : BitVec 3),
    ∃ t : State, exec (.loadtile a b tile c d) s = .next t ∧ exec (.loadblock a b tile c d) s = .next t ∧
      t = { s with tile := t.tile } ∧
      (∀ k : Fin 8, k.val ≠ tile.toNat → t.tileAt k = s.tileAt k) ∧
      ∀ k : Fin 8, k.val = tile.toNat → t.tileAt k = { s.tileAt k with src := s.resolve s.timg.addr }

/-- R180: SETTILESIZE on an unbound tile writes the bounds and the size, binds the current image, and realizes nothing. -/
def Obligations.SettilesizeOnAnUnboundTileBindsIt : Prop :=
  ∀ (s : State) (uls ult lrs lrt : BitVec 12) (tile : BitVec 3) (k : Fin 8),
    k.val = tile.toNat → (s.tileAt k).src = none →
    ∃ t : State, exec (.settilesize uls ult tile lrs lrt) s = .next t ∧ t = { s with tile := t.tile } ∧
      (∀ k' : Fin 8, k' ≠ k → t.tileAt k' = s.tileAt k') ∧
      t.tileAt k =
        { s.tileAt k with
          uls := uls, ult := ult, lrs := lrs, lrt := lrt
          width := (lrs.toNat / 4 : Nat) - (uls.toNat / 4 : Nat) + 1
          height := (lrt.toNat / 4 : Nat) - (ult.toNat / 4 : Nat) + 1
          src := s.resolve s.timg.addr }

/-- R180, R185, R186, R187: SETTILESIZE on a bound tile releases the texture the tile holds and, when the new size is
positive, creates one texture of that size decoded from the bound address, whose handle the tile then holds, and for tile
0 the legacy register too; when it is not, the tile holds none, and for tile 0 the legacy register none where a texture
was released. No other tile is written, and nothing else changes but the trace and, with a texture created, the model's
own list of handle answers and its count, one of which is used up: the handle is the first answer of the list unless
another tile holds that one (DESIGN CHOICE, notes/assumptions/7.md). -/
def Obligations.SettilesizeOnABoundTileRebuildsIt : Prop :=
  ∀ (s : State) (uls ult lrs lrt : BitVec 12) (tile : BitVec 3) (k : Fin 8) (loc : Nat) (w h : Int),
    k.val = tile.toNat → (s.tileAt k).src = some loc →
    w = (lrs.toNat / 4 : Nat) - (uls.toNat / 4 : Nat) + 1 → h = (lrt.toNat / 4 : Nat) - (ult.toNat / 4 : Nat) + 1 →
    let rebuilt := fun (tex : Option Handle) =>
      { s.tileAt k with
        uls := uls, ult := ult, lrs := lrs, lrt := lrt, width := w, height := h, tex := tex }
    let released := s.out ++ (s.tileAt k).tex.toList.map Event.releaseTexture
    (w < 1 ∨ h < 1 →
      exec (.settilesize uls ult tile lrs lrt) s = .next { s with
        tile := s.tile.set k (rebuilt none)
        legacyTex := if k = 0 ∧ (s.tileAt k).tex ≠ none then none else s.legacyTex
        out := released }) ∧
    (1 ≤ w → 1 ≤ h → ∃ hd : Handle,
      (∀ k' : Fin 8, k' ≠ k → (s.tileAt k').tex ≠ some hd) ∧
      (∀ a as, s.answers = a :: as → (∀ k' : Fin 8, k' ≠ k → (s.tileAt k').tex ≠ some a) → hd = a) ∧
      exec (.settilesize uls ult tile lrs lrt) s = .next { s with
        tile := s.tile.set k (rebuilt (some hd))
        legacyTex := if k = 0 then some hd else s.legacyTex
        out := released ++
          [.createTexture
            (realizeBuffer s.mem s.tlut { s.tileAt k with width := w, height := h } loc) w h hd]
        answers := s.answers.tail
        draws := s.draws + 1 })

/-- R51, R185, R188: the buffer of a realization holds four bytes a texel, row-major, texel `k = r·width + c` decoded from
the packed source. -/
def Obligations.RealizedBufferIsRowMajor : Prop :=
  ∀ (m : Memory) (tlut : Vector (BitVec 16) 256) (d : Tile) (loc w h : Nat), d.width = w → d.height = h →
    (realizeBuffer m tlut d loc).length = 4 * (w * h) ∧
    ∀ r c : Nat, r < h → c < w →
      ((realizeBuffer m tlut d loc).drop (4 * (r * w + c))).take 4 =
        rgbaBytes (decodeTexel m tlut d.fmt d.siz d.palette loc (r * w + c))

/-- R183: LOADTLUT copies `min(cnt + 1, 256)` entries from index 0 upward, big-endian halves from the current image, and
leaves the rest; an address that does not resolve copies nothing. -/
def Obligations.LoadtlutCopiesEntriesFromZero : Prop :=
  ∀ (s : State) (tile : BitVec 3) (cnt : BitVec 10),
    (s.resolve s.timg.addr = none → exec (.loadtlut tile cnt) s = .next s) ∧
    ∀ loc, s.resolve s.timg.addr = some loc →
      ∃ t : State, exec (.loadtlut tile cnt) s = .next t ∧ t = { s with tlut := t.tlut } ∧
        ∀ k : Fin 256,
          (k.val ≤ cnt.toNat → t.tlut[k].toNat =
            256 * (Memory.byte s.mem (loc + 2 * k)).toNat + (Memory.byte s.mem (loc + 2 * k + 1)).toNat) ∧
          (cnt.toNat < k.val → t.tlut[k] = s.tlut[k])

/-- R183, R202, R208: after a palette load, a CI8 texel whose byte names a loaded entry decodes as the RGBA16 texel at that
entry's place in the image. -/
def Obligations.Ci8AfterLoadtlutIsRgba16 : Prop :=
  ∀ (s t : State) (tile : BitVec 3) (cnt : BitVec 10) (loc src k : Nat) (pal pal' : BitVec 4),
    s.resolve s.timg.addr = some loc → exec (.loadtlut tile cnt) s = .next t →
    (Memory.byte s.mem (src + k)).toNat ≤ cnt.toNat →
    decodeTexel t.mem t.tlut 2#3 1#2 pal src k =
      decodeTexel s.mem s.tlut 0#3 2#2 pal' loc (Memory.byte s.mem (src + k)).toNat

/-- R201 to R209, R212: the nine decodable pairs, channel by channel as numbers; `v` is the 16-bit unit, `b` the byte and
`n` the nibble of texel `k` (the high nibble for an even `k`). -/
def Obligations.TexelFormatsDecodeAsTheTable : Prop :=
  ∀ (m : Memory) (tlut : Vector (BitVec 16) 256) (pal : BitVec 4) (loc k v b n : Nat),
    v = 256 * (Memory.byte m (loc + 2 * k)).toNat + (Memory.byte m (loc + 2 * k + 1)).toNat →
    b = (Memory.byte m (loc + k)).toNat →
    n = (if k % 2 = 0 then (Memory.byte m (loc + k / 2)).toNat / 16 else (Memory.byte m (loc + k / 2)).toNat % 16) →
    let texel := fun fmt siz =>
      let c := decodeTexel m tlut fmt siz pal loc k
      (c.r.toNat, c.g.toNat, c.b.toNat, c.a.toNat)
    let unit := fun u : Nat => (8 * (u / 2048 % 32), 8 * (u / 64 % 32), 8 * (u / 2 % 32), 255 * (u % 2))
    texel 0#3 2#2 = unit v ∧
    texel 0#3 3#2 =
      ((Memory.byte m (loc + 4 * k)).toNat, (Memory.byte m (loc + 4 * k + 1)).toNat,
       (Memory.byte m (loc + 4 * k + 2)).toNat, (Memory.byte m (loc + 4 * k + 3)).toNat) ∧
    texel 3#3 2#2 = (v / 256, v / 256, v / 256, v % 256) ∧
    texel 3#3 1#2 = (17 * (b / 16), 17 * (b / 16), 17 * (b / 16), 17 * (b % 16)) ∧
    texel 3#3 0#2 =
      (36 * (n / 2) + n / 4, 36 * (n / 2) + n / 4, 36 * (n / 2) + n / 4, 255 * (n % 2)) ∧
    texel 4#3 1#2 = (b, b, b, 255) ∧
    texel 4#3 0#2 = (17 * n, 17 * n, 17 * n, 255) ∧
    (∀ u, tlut[b]? = some u → texel 2#3 1#2 = unit u.toNat) ∧
    (∀ u, tlut[16 * pal.toNat + n]? = some u → texel 2#3 0#2 = unit u.toNat)

/-- R200, R210: nine of the 32 pairs decode; each of the other 23 is opaque magenta for every texel, whatever memory
holds. -/
def Obligations.OtherTexelPairsAreMagenta : Prop :=
  ∀ (fmt : BitVec 3) (siz : BitVec 2),
    (fmt.toNat, siz.toNat) ∉ [(0, 2), (0, 3), (3, 2), (3, 1), (3, 0), (4, 1), (4, 0), (2, 1), (2, 0)] →
    ∀ (m : Memory) (tlut : Vector (BitVec 16) 256) (pal : BitVec 4) (loc k : Nat),
      decodeTexel m tlut fmt siz pal loc k = ⟨255#8, 0#8, 255#8, 255#8⟩

/-! ## Rectangles and colours -/

/-- R240, R241, R242: the colour commands write their one register. -/
def Obligations.ColourCommandsWriteTheirRegister : Prop :=
  ∀ (s : State) (w : BitVec 32) (r g b a : BitVec 8),
    exec (.setfillcolor w) s = .next { s with fill := w } ∧
    exec (.setprimcolor r g b a) s = .next { s with prim := ⟨r, g, b, a⟩ } ∧
    exec (.setenvcolor r g b a) s = .next { s with env := ⟨r, g, b, a⟩ }

/-- R230 to R233: FILLRECT emits nothing under the sentinel, else one untextured opaque quad in the fill register's 5-5-5
colour, depth testing suspended around it; nothing but the trace changes. -/
def Obligations.FillrectDrawsUnlessSentinel : Prop :=
  ∀ (s : State) (lrx lry ulx uly : BitVec 12),
    (s.fill = 0xFFFCFFFC#32 → exec (.fillrect lrx lry ulx uly) s = .next s) ∧
    (s.fill ≠ 0xFFFCFFFC#32 → ∃ c : Rgba,
      c.r.toNat = 8 * (s.fill.toNat / 2048 % 32) ∧ c.g.toNat = 8 * (s.fill.toNat / 64 % 32) ∧
      c.b.toNat = 8 * (s.fill.toNat / 2 % 32) ∧ c.a = 255#8 ∧
      exec (.fillrect lrx lry ulx uly) s =
        .next { s with
          out := s.out ++
            [.setDepthTest false,
             .drawQuad none ⟨px ulx, px uly, 0#32, 0#32, 0#32, c⟩ ⟨px lrx, px uly, 0#32, 0#32, 0#32, c⟩
               ⟨px lrx, px lry, 0#32, 0#32, 0#32, c⟩ ⟨px ulx, px lry, 0#32, 0#32, 0#32, c⟩,
             .setDepthTest true] })

/-- R236: TEXRECT and TEXRECTM over a tile that holds a texture and has a positive size: the two continuation entries
are consumed whatever they are, and the one textured quad is drawn in white, its coordinates normalized by the size. -/
def Obligations.TexrectDrawsARealizedTile : Prop :=
  ∀ (s : State) (f : Frame) (fs : List Frame) (lrx lry ulx uly : BitVec 12) (tile : BitVec 3) (k : Fin 8) (h : Handle)
    (c0 c1 : Word) (s0 t0 s1 t1 w ht : F32),
    s.stack = f :: fs → k.val = tile.toNat → (s.tileAt k).tex = some h →
    1 ≤ (s.tileAt k).width → 1 ≤ (s.tileAt k).height →
    c0 = Memory.read4 s.mem (f.base + 8 * f.cursor + 4) → c1 = Memory.read4 s.mem (f.base + 8 * f.cursor + 12) →
    s0 = fdiv (i2f (c0.extractLsb' 16 16).toInt) (i2f 32) → t0 = fdiv (i2f (c0.extractLsb' 0 16).toInt) (i2f 32) →
    s1 = fadd s0 (fmul (fdiv (i2f (c1.extractLsb' 16 16).toInt) (i2f 1024)) (fsub (px lrx) (px ulx))) →
    t1 = fadd t0 (fmul (fdiv (i2f (c1.extractLsb' 0 16).toInt) (i2f 1024)) (fsub (px lry) (px uly))) →
    w = i2f (s.tileAt k).width → ht = i2f (s.tileAt k).height →
    let white : Rgba := ⟨255#8, 255#8, 255#8, 255#8⟩
    let t : State := { s with
      stack := { f with cursor := f.cursor + 2 } :: fs
      cont0 := c0
      cont1 := c1
      out := s.out ++
        [.setDepthTest false,
         .drawQuad (some h) ⟨px ulx, px uly, 0#32, fdiv s0 w, fdiv t0 ht, white⟩
           ⟨px lrx, px uly, 0#32, fdiv s1 w, fdiv t0 ht, white⟩ ⟨px lrx, px lry, 0#32, fdiv s1 w, fdiv t1 ht, white⟩
           ⟨px ulx, px lry, 0#32, fdiv s0 w, fdiv t1 ht, white⟩,
         .setDepthTest true] }
    exec (.texrect lrx lry tile ulx uly) s = .next t ∧ exec (.texrectm lrx lry tile ulx uly) s = .next t

/-- R236, R243: TEXRECT and TEXRECTM over a tile with no texture and no source, or of no positive size with its texture
held, consume their continuation entries and emit nothing. -/
def Obligations.TexrectWithoutATextureDrawsNothing : Prop :=
  ∀ (s : State) (f : Frame) (fs : List Frame) (lrx lry ulx uly : BitVec 12) (tile : BitVec 3) (k : Fin 8),
    s.stack = f :: fs → k.val = tile.toNat →
    (((s.tileAt k).tex = none ∧ (s.tileAt k).src = none) ∨ (s.tileAt k).width < 1 ∨ (s.tileAt k).height < 1) →
    let t : State := { s with
      stack := { f with cursor := f.cursor + 2 } :: fs
      cont0 := Memory.read4 s.mem (f.base + 8 * f.cursor + 4)
      cont1 := Memory.read4 s.mem (f.base + 8 * f.cursor + 12) }
    exec (.texrect lrx lry tile ulx uly) s = .next t ∧ exec (.texrectm lrx lry tile ulx uly) s = .next t

/-- R184, R185, R187, R236: first use. A TEXRECT or TEXRECTM over a bound tile of positive size that holds no texture
does what it does from the state in which that texture has just been created, the tile (and for tile 0 the legacy
register) holding the handle answered. That the creation takes `nextHandle`, uses up the first of the listed answers and
is counted is said of the model's own fields `answers` and `draws` (DESIGN CHOICE, notes/assumptions/7.md). -/
def Obligations.TexrectRealizesABoundTileAtFirstUse : Prop :=
  ∀ (s : State) (f : Frame) (fs : List Frame) (lrx lry ulx uly : BitVec 12) (tile : BitVec 3) (k : Fin 8) (loc : Nat),
    s.stack = f :: fs → k.val = tile.toNat → (s.tileAt k).tex = none → (s.tileAt k).src = some loc →
    1 ≤ (s.tileAt k).width → 1 ≤ (s.tileAt k).height →
    let realized : State := { s with
      tile := s.tile.set k { s.tileAt k with tex := some s.nextHandle }
      legacyTex := if k = 0 then some s.nextHandle else s.legacyTex
      out := s.out ++
        [.createTexture (realizeBuffer s.mem s.tlut (s.tileAt k) loc) (s.tileAt k).width (s.tileAt k).height s.nextHandle]
      answers := s.answers.tail
      draws := s.draws + 1 }
    ∃ (t : State) (v0 v1 v2 v3 : ScreenVertex),
      exec (.texrect lrx lry tile ulx uly) s = .next t ∧ exec (.texrectm lrx lry tile ulx uly) s = .next t ∧
      exec (.texrect lrx lry tile ulx uly) realized = .next t ∧
      t.out = realized.out ++
        [.setDepthTest false, .drawQuad (some s.nextHandle) v0 v1 v2 v3, .setDepthTest true]

/-- R237: TEXRECTM is TEXRECT under another opcode: the same operands in the same bits, the same effect, nothing
mirrored. -/
def Obligations.TexrectmIsTexrect : Prop :=
  ∀ (s : State) (lrx lry ulx uly : BitVec 12) (tile : BitVec 3),
    exec (.texrectm lrx lry tile ulx uly) s = exec (.texrect lrx lry tile ulx uly) s ∧
    (encode (.texrectm lrx lry tile ulx uly)).1 = (encode (.texrect lrx lry tile ulx uly)).1 ^^^ 0x01000000#32 ∧
    (encode (.texrectm lrx lry tile ulx uly)).2 = (encode (.texrect lrx lry tile ulx uly)).2

/-- R236 (vi): with `s = t = 0` and `dsdx = dtdy = 1024` the textured quad steps one texel a pixel: the far coordinates
are the pixel extents over the tile's size. -/
def Obligations.UnitStepIsOneTexelPerPixel : Prop :=
  ∀ (s : State) (f : Frame) (fs : List Frame) (lrx lry ulx uly : BitVec 12) (tile : BitVec 3) (k : Fin 8) (h : Handle)
    (u1 v1 : F32),
    s.stack = f :: fs → k.val = tile.toNat → (s.tileAt k).tex = some h →
    1 ≤ (s.tileAt k).width → 1 ≤ (s.tileAt k).height →
    Memory.read4 s.mem (f.base + 8 * f.cursor + 4) = 0#32 →
    Memory.read4 s.mem (f.base + 8 * f.cursor + 12) = 0x04000400#32 →
    u1 = fdiv (fsub (px lrx) (px ulx)) (i2f (s.tileAt k).width) →
    v1 = fdiv (fsub (px lry) (px uly)) (i2f (s.tileAt k).height) →
    let white : Rgba := ⟨255#8, 255#8, 255#8, 255#8⟩
    ∃ t : State, exec (.texrect lrx lry tile ulx uly) s = .next t ∧ exec (.texrectm lrx lry tile ulx uly) s = .next t ∧
      t.out = s.out ++
        [.setDepthTest false,
         .drawQuad (some h) ⟨px ulx, px uly, 0#32, 0#32, 0#32, white⟩ ⟨px lrx, px uly, 0#32, u1, 0#32, white⟩
           ⟨px lrx, px lry, 0#32, u1, v1, white⟩ ⟨px ulx, px lry, 0#32, 0#32, v1, white⟩,
         .setDepthTest true]

/-! ## Triangles -/

/-- R184, R261, R262, R265, R266: TRI1. An index out of range or a vertex skipped drops the triangle; else it is emitted, in
field order, with the legacy register's texture, which is made first when tile 0 is bound, of positive size and without
a texture. Nothing else changes; the creation uses up one of the model's handle answers (DESIGN CHOICE,
notes/assumptions/7.md). -/
def Obligations.Tri1EmitsOrDropsItsTriangle : Prop :=
  ∀ (s : State) (i0 i1 i2 : BitVec 8),
    (128 ≤ i0.toNat ∨ 128 ≤ i1.toNat ∨ 128 ≤ i2.toNat → exec (.tri1 i0 i1 i2) s = .next s) ∧
    ∀ a b c : VtxEntry, s.vc[i0.toNat / 2]? = some a → s.vc[i1.toNat / 2]? = some b → s.vc[i2.toNat / 2]? = some c →
      (flt (fabs a.w) s.params.wEpsilon = true ∨ flt (fabs b.w) s.params.wEpsilon = true ∨
        flt (fabs c.w) s.params.wEpsilon = true → exec (.tri1 i0 i1 i2) s = .next s) ∧
      (flt (fabs a.w) s.params.wEpsilon = false → flt (fabs b.w) s.params.wEpsilon = false →
        flt (fabs c.w) s.params.wEpsilon = false →
        ((s.tileAt 0).src = none ∨ (s.tileAt 0).tex ≠ none ∨ (s.tileAt 0).width < 1 ∨ (s.tileAt 0).height < 1 →
          exec (.tri1 i0 i1 i2) s =
            .next { s with out := s.out ++ [.drawTriangle s.legacyTex (screen a) (screen b) (screen c)] }) ∧
        (∀ loc, (s.tileAt 0).tex = none → (s.tileAt 0).src = some loc → 1 ≤ (s.tileAt 0).width →
          1 ≤ (s.tileAt 0).height →
          exec (.tri1 i0 i1 i2) s =
            .next { s with
              tile := s.tile.set 0 { s.tileAt 0 with tex := some s.nextHandle }
              legacyTex := some s.nextHandle
              out := s.out ++
                [.createTexture (realizeBuffer s.mem s.tlut (s.tileAt 0) loc) (s.tileAt 0).width (s.tileAt 0).height
                   s.nextHandle,
                 .drawTriangle (some s.nextHandle) (screen a) (screen b) (screen c)]
              answers := s.answers.tail
              draws := s.draws + 1 }))

/-- R267, R268: TRI2 and QUAD are their two triangles, one after the other, each dropped or emitted on its own. -/
def Obligations.Tri2AndQuadAreTwoTriangles : Prop :=
  ∀ (s : State) (i0 i1 i2 i3 i4 i5 : BitVec 8), ∃ t u : State,
    exec (.tri1 i0 i1 i2) s = .next t ∧ exec (.tri1 i3 i4 i5) t = .next u ∧
    exec (.tri2 i0 i1 i2 i3 i4 i5) s = .next u ∧ exec (.quad i0 i1 i2 i3 i4 i5) s = .next u

/-- R260: triangle assembly reads the vertex cache and writes only, through first use, the texture of tile 0: every other
tile, every other field of tile 0, every register and every byte of memory stay. The handle answers and their count, which
a creation may move, are the model's own fields (DESIGN CHOICE, notes/assumptions/7.md). -/
def Obligations.TrianglesWriteOnlyTileZerosTexture : Prop :=
  ∀ (i : Instr) (s t : State), i.opcode ∈ [.tri1, .tri2, .quad] → exec i s = .next t →
    t = { s with
      tile := t.tile, legacyTex := t.legacyTex, out := t.out, answers := t.answers, draws := t.draws } ∧
    (∀ k : Fin 8, k ≠ 0 → t.tileAt k = s.tileAt k) ∧
    t.tileAt 0 = { s.tileAt 0 with tex := (t.tileAt 0).tex }

/-- R262: with a positive finite `W_EPSILON` the guard skips exactly the finite `w` of a magnitude below it, so a vertex
whose `w` is a zero of either sign is never drawn, and one whose `w` is an infinity or a NaN is not skipped. -/
def Obligations.ZeroWVertexIsNeverDrawn : Prop :=
  ∀ s : State, s.params.wf = true →
    (∀ w : F32, flt (fabs w) s.params.wEpsilon = true ↔ fisFinite w = true ∧ (fmag w : Int) < fval s.params.wEpsilon) ∧
    ∀ (i0 i1 i2 : BitVec 8) (p : VtxEntry),
      (s.vc[i0.toNat / 2]? = some p ∨ s.vc[i1.toNat / 2]? = some p ∨ s.vc[i2.toNat / 2]? = some p) →
      p.w = 0#32 ∨ p.w = 0x80000000#32 → exec (.tri1 i0 i1 i2) s = .next s

/-- R263: the screen vertex of every cache entry. One reciprocal of `w` (of 1.0) multiplies `x`, `y` and `z`; the
horizontal axis is scaled by 160.0 and moved to the right of 160.0, the vertical one scaled by 120.0 and flipped about
120.0; the depth is `z` times the reciprocal; texture coordinates and colour are carried unchanged. So with `w = 1.0` a
position of 16-bit integers lands exactly on `(160 + 160x, 120 - 120y)` at depth `z` (in units of 2^-149), and the clip
origin on the canvas centre. -/
def Obligations.ScreenDividesByWAndFlipsTheVerticalAxis : Prop :=
  (∀ p : VtxEntry,
    let inv := fdiv 0x3F800000#32 p.w
    screen p =
      { x := fadd 0x43200000#32 (fmul (fmul p.x inv) 0x43200000#32)
        y := fsub 0x42F00000#32 (fmul (fmul p.y inv) 0x42F00000#32)
        z := fmul p.z inv
        u := p.u, v := p.v, c := p.c }) ∧
  (∀ (x y z : Half) (u v : F32) (c : Rgba),
    let q := screen ⟨i2f x.toInt, i2f y.toInt, i2f z.toInt, 0x3F800000#32, u, v, c⟩
    fisFinite q.x = true ∧ fval q.x = (160 + 160 * x.toInt) * 2 ^ 149 ∧
    fisFinite q.y = true ∧ fval q.y = (120 - 120 * y.toInt) * 2 ^ 149 ∧ q.z = i2f z.toInt) ∧
  ∀ (u v : F32) (c : Rgba),
    screen ⟨0#32, 0#32, 0#32, 0x3F800000#32, u, v, c⟩ = ⟨0x43200000#32, 0x42F00000#32, 0#32, u, v, c⟩
end

