-- ==== Sys2Proof/Laws/Bits.lean ====
section
/-! SUPPORT. How the bit-field helpers of the encoder and the decoder meet: a field read where a value was put is the
value, a field read elsewhere is 0, and bytes read back as the word they hold. -/

namespace Sys2Proof

@[simp] theorem field_or (a b : Word) (lo n : Nat) : field (a ||| b) lo n = field a lo n ||| field b lo n := by
  unfold field; ext i hi; simp

/-- A field read where a value was put is the value. -/
theorem field_put_same {n : Nat} (v : BitVec n) (lo : Nat) (h : lo + n ≤ 32) : field (put v lo) lo n = v := by
  unfold field put
  ext i hi
  have h1 : lo + i < 32 := by omega
  simp [h1, BitVec.getLsbD_eq_getElem hi]

/-- A field read beside a value put into a word is 0. -/
theorem field_put_disjoint {m : Nat} (v : BitVec m) (lo lo' n : Nat) (h : lo' + n ≤ lo ∨ lo + m ≤ lo') :
    field (put v lo) lo' n = 0#n := by
  unfold field put
  ext i hi
  have hv : ¬(lo' + i < lo) → v.getLsbD (lo' + i - lo) = false := fun h' => BitVec.getLsbD_of_ge _ _ (by omega)
  simp
  intro _ h2 _
  exact hv (by omega)

@[simp] theorem field_zero (lo n : Nat) : field 0#32 lo n = 0#n := by
  unfold field; ext i hi; simp

/-- The whole of a word is a field of it. -/
@[simp] theorem field_whole (w : Word) : field w 0 32 = w := by
  unfold field; ext i hi; simp

/-- A value put into a word has none of the bits of a mask that is 0 where the value lies. -/
theorem put_and_mask {n : Nat} (v : BitVec n) (lo : Nat) (m : Word) (h : field m lo n = 0#n) : put v lo &&& m = 0#32 := by
  unfold put
  ext i hi
  simp only [BitVec.getElem_and, BitVec.getElem_zero, BitVec.getElem_shiftLeft, BitVec.getElem_setWidth]
  by_cases hlo : i < lo
  · simp [hlo]
  · by_cases hn : i - lo < n
    · have := congrArg (fun x => x.getLsbD (i - lo)) h
      have e : lo + (i - lo) = i := by omega
      simp [field, hn, e] at this
      simp [BitVec.getLsbD_eq_getElem hi] at this
      simp [this]
    · simp [BitVec.getLsbD_of_ge v (i - lo) (by omega)]

/-- The four bytes of a word are the word. -/
@[simp] theorem wordOfBytes_wordBytes (w : Word) :
    wordOfBytes (field w 24 8) (field w 16 8) (field w 8 8) (field w 0 8) = w := by
  unfold wordOfBytes field put
  ext i hi
  simp
  interval_cases i <;> simp

/-- The opcode byte reads back as the opcode (R96). -/
@[simp] theorem Opcode.ofCode_code (o : Opcode) : Opcode.ofCode o.code = some o := by
  cases o <;> decide

/-- The bytes of an entry decode as its two words do. -/
theorem decode_wordBytes (w0 w1 : Word) (rest : List Byte) :
    decode (wordBytes w0 ++ wordBytes w1 ++ rest) = decodeEntry w0 w1 := by
  simp [wordBytes, decode]

/-- The 8 bytes of an entry given as `cmd` decode as its two words do. -/
theorem decode_cmdBytes (cmd : BitVec 64) (rest : List Byte) :
    decode (cmdBytes cmd ++ rest) = decodeEntry (cmd.extractLsb' 32 32) (cmd.extractLsb' 0 32) := by
  rw [cmdBytes, decode_wordBytes]

end Sys2Proof
end

