-- ==== Sys2Proof/Laws/Float.lean ====
section
/-! SUPPORT. The laws of the float format: how a value is put together, and that rounding an exact value gives that
value back. -/

namespace Sys2Proof.Machine

/-- A value is its sign and the 31 bits below it. -/
theorem fpack_fsign_fmagBits (a : F32) : fpack (fsign a) (fmagBits a) = a := by
  have h := a.isLt
  apply BitVec.eq_of_toNat_eq
  simp only [fpack, fsign, fmagBits, BitVec.msb_eq_decide, BitVec.toNat_ofNat, decide_eq_true_eq]
  split <;> omega

theorem fmagBits_lt (a : F32) : fmagBits a < 2 ^ 31 := Nat.mod_lt _ (by decide)

/-- The 31 bits a value is packed from read back. -/
theorem fmagBits_fpack (neg : Bool) (b : Nat) (h : b < 2 ^ 31) : fmagBits (fpack neg b) = b := by
  cases neg <;> simp [fmagBits, fpack] <;> omega

/-- The sign a value is packed from reads back. -/
theorem fsign_fpack (neg : Bool) (b : Nat) (h : b < 2 ^ 31) : fsign (fpack neg b) = neg := by
  cases neg <;> simp [fsign, fpack, BitVec.msb_eq_decide] <;> omega

/-- The magnitude of a value by its exponent field: a subnormal is its fraction. -/
theorem fmag_cases (a : F32) :
    (fmagBits a < 2 ^ 23 ∧ fmag a = fmagBits a) ∨
    (∃ e f, f < 2 ^ 23 ∧ fmagBits a = (e + 1) * 2 ^ 23 + f ∧ fmag a = (f + 2 ^ 23) * 2 ^ e) := by
  unfold fmag
  by_cases h : fmagBits a / 2 ^ 23 = 0
  · left; simp only [h, if_true]; omega
  · right
    refine ⟨fmagBits a / 2 ^ 23 - 1, fmagBits a % 2 ^ 23, Nat.mod_lt _ (by decide), by omega, ?_⟩
    simp only [h, if_false]

/-- Rounding to the nearest integer a fraction that is one. -/
theorem nearestEven_exact (m den : Nat) (h : 0 < den) : nearestEven (m * den) den = m := by
  simp [nearestEven, Nat.mul_div_cancel _ h, h]

/-- The bits dropped from a mantissa of 24 bits shifted left. -/
theorem log2_mantissa (e f : Nat) (h : f < 2 ^ 23) : Nat.log2 ((f + 2 ^ 23) * 2 ^ e) = 23 + e := by
  have hp : 0 < 2 ^ e := Nat.pow_pos (by decide)
  have hne : (f + 2 ^ 23) * 2 ^ e ≠ 0 := Nat.mul_ne_zero (by omega) (by omega)
  have h1 : 23 + e ≤ Nat.log2 ((f + 2 ^ 23) * 2 ^ e) := by
    rw [Nat.le_log2 hne, Nat.pow_add]
    exact Nat.mul_le_mul_right _ (by omega)
  have h2 : Nat.log2 ((f + 2 ^ 23) * 2 ^ e) < 24 + e := by
    rw [Nat.log2_lt hne, Nat.pow_add]
    exact Nat.mul_lt_mul_of_pos_right (by omega) hp
  omega

/-- Rounding a fraction that is a finite value gives the value (R10): exact results stay. -/
theorem roundRatio_exact (a : F32) (num den : Nat) (hf : fisFinite a = true) (hd : 0 < den)
    (h : num * 2 ^ 149 = fmag a * den) : roundRatio (fsign a) num den = a := by
  have hfin : fmagBits a < 0x7F800000 := by simpa [fisFinite] using hf
  unfold roundRatio
  simp only [h, Nat.mul_div_cancel _ hd]
  rcases fmag_cases a with ⟨hs, hm⟩ | ⟨e, f, hlt, hb, hm⟩
  · have he : Nat.log2 (fmag a) - 23 = 0 := by
      rw [hm]
      by_cases h0 : fmagBits a = 0
      · simp [h0]
      · have := (Nat.log2_lt h0).mpr (Nat.lt_of_lt_of_le hs (Nat.pow_le_pow_right (by decide) (by decide : 23 ≤ 24)))
        omega
    rw [he, Nat.pow_zero, Nat.mul_one, nearestEven_exact _ _ hd, hm, Nat.zero_mul, Nat.add_zero,
      Nat.min_eq_left (by omega)]
    exact fpack_fsign_fmagBits a
  · have he : Nat.log2 (fmag a) - 23 = e := by rw [hm, log2_mantissa e f hlt]; omega
    have hx : fmag a * den = (f + 2 ^ 23) * (den * 2 ^ e) := by
      rw [hm, Nat.mul_assoc, Nat.mul_comm (2 ^ e) den]
    have hp : 0 < den * 2 ^ e := Nat.mul_pos hd (Nat.pow_pos (by decide))
    rw [he, hx, nearestEven_exact _ _ hp, show f + 2 ^ 23 + e * 2 ^ 23 = fmagBits a by rw [hb]; ring,
      Nat.min_eq_left (by omega)]
    exact fpack_fsign_fmagBits a

end Sys2Proof.Machine
end

