-- ==== Sys2Proof/Laws/Memory.lean ====
section
/-! SUPPORT. The laws of memory: a read after a write, and the canonical form. -/

namespace Sys2Proof.Machine

/-- Reading the location just written gives the byte written. -/
theorem Memory.read?_write_same (m : Memory) (loc : Nat) (b : Byte) :
    Memory.read? (Memory.write m loc b) loc = some b := by
  induction m with
  | nil => simp [Memory.write, Memory.read?]
  | cons c rest ih =>
    obtain ⟨k, x⟩ := c
    simp only [Memory.write]
    split
    · simp [Memory.read?]
    · split
      · simp [Memory.read?]
      · next h₁ h₂ =>
        have : k ≠ loc := fun h => h₂ h.symm
        simp [Memory.read?, this, ih]

/-- Reading another location gives what it gave before. -/
theorem Memory.read?_write_other (m : Memory) (loc a : Nat) (b : Byte) (h : a ≠ loc) :
    Memory.read? (Memory.write m loc b) a = Memory.read? m a := by
  induction m with
  | nil => simp [Memory.write, Memory.read?, Ne.symm h]
  | cons c rest ih =>
    obtain ⟨k, x⟩ := c
    simp only [Memory.write]
    split
    · simp [Memory.read?, Ne.symm h]
    · split
      · next _ h₂ => subst h₂; simp [Memory.read?, Ne.symm h]
      · simp only [Memory.read?]; split <;> simp [ih]

/-- A location listed after a write was listed before or is the one written. -/
theorem Memory.mem_write (m : Memory) (loc : Nat) (b : Byte) (c : Host.Cell) (h : c ∈ Memory.write m loc b) :
    c ∈ m ∨ c = (loc, b) := by
  induction m with
  | nil => simpa [Memory.write] using h
  | cons d rest ih =>
    obtain ⟨k, x⟩ := d
    simp only [Memory.write] at h
    split at h
    · simp only [List.mem_cons] at h ⊢; tauto
    · split at h
      · simp only [List.mem_cons] at h ⊢; tauto
      · rcases List.mem_cons.mp h with h | h
        · simp [h]
        · rcases ih h with h | h <;> simp [h]

/-- A write keeps the canonical form. -/
theorem Memory.write_wf (m : Memory) (loc : Nat) (b : Byte) (h : Memory.wf m) : Memory.wf (Memory.write m loc b) := by
  induction m with
  | nil => simp [Memory.write, Memory.wf]
  | cons d rest ih =>
    obtain ⟨k, x⟩ := d
    rw [Memory.wf, List.pairwise_cons] at h
    obtain ⟨hk, hrest⟩ := h
    simp only [Memory.write]
    split
    · next hlt =>
      rw [Memory.wf, List.pairwise_cons]
      refine ⟨fun c hc => ?_, List.pairwise_cons.mpr ⟨hk, hrest⟩⟩
      rcases List.mem_cons.mp hc with rfl | hc
      · exact hlt
      · exact Nat.lt_trans hlt (hk c hc)
    · split
      · next _ heq => subst heq; exact List.pairwise_cons.mpr ⟨hk, hrest⟩
      · next hlt hne =>
        refine List.pairwise_cons.mpr ⟨fun c hc => ?_, ih hrest⟩
        rcases Memory.mem_write rest loc b c hc with hc | rfl
        · exact hk c hc
        · exact Nat.lt_of_le_of_ne (Nat.le_of_not_lt hlt) (Ne.symm hne)

/-- Writing several bytes keeps the canonical form. -/
theorem Memory.writeBytes_wf (m : Memory) (loc : Nat) (bs : List Byte) (h : Memory.wf m) :
    Memory.wf (Memory.writeBytes m loc bs) := by
  induction bs generalizing m loc with
  | nil => exact h
  | cons b bs ih => exact ih _ _ (Memory.write_wf m loc b h)

/-- Writing several bytes leaves a location below them as it was. -/
theorem Memory.read?_writeBytes_below (m : Memory) (loc a : Nat) (bs : List Byte) (h : a < loc) :
    Memory.read? (Memory.writeBytes m loc bs) a = Memory.read? m a := by
  induction bs generalizing m loc with
  | nil => rfl
  | cons b bs ih =>
    rw [Memory.writeBytes, ih _ _ (Nat.lt_succ_of_lt h), Memory.read?_write_other _ _ _ _ (Nat.ne_of_lt h)]

/-- Reading back the `k`-th of several bytes written. -/
theorem Memory.read?_writeBytes (m : Memory) (loc : Nat) (bs : List Byte) (k : Nat) (b : Byte) (h : bs[k]? = some b) :
    Memory.read? (Memory.writeBytes m loc bs) (loc + k) = some b := by
  induction bs generalizing m loc k with
  | nil => simp at h
  | cons c bs ih =>
    cases k with
    | zero =>
      obtain rfl : c = b := by simpa using h
      show Memory.read? (Memory.writeBytes (Memory.write m loc c) (loc + 1) bs) loc = _
      rw [Memory.read?_writeBytes_below _ _ _ _ (Nat.lt_succ_self loc), Memory.read?_write_same]
    | succ k =>
      have := ih (Memory.write m loc c) (loc + 1) k (by simpa using h)
      rwa [show loc + 1 + k = loc + (k + 1) by omega] at this

/-- A listed byte is what memory reads as. -/
theorem Memory.byte_of_read? (m : Memory) (loc : Nat) (b : Byte) (h : Memory.read? m loc = some b) :
    Memory.byte m loc = b := by
  simp [Memory.byte, h]

/-- The memory of the state right after reset is in canonical form. -/
theorem reset_mem_wf : Memory.wf State.reset.mem := List.Pairwise.nil

/-- Address 0 never resolves (R60). -/
@[simp] theorem State.resolve_zero (s : State) : s.resolve 0#32 = none := by simp [State.resolve]

/-- A half read is its two bytes as a number, the first the more significant (R64). -/
theorem Memory.read2_toNat (m : Memory) (loc : Nat) :
    (Memory.read2 m loc).toNat = 256 * (Memory.byte m loc).toNat + (Memory.byte m (loc + 1)).toNat := by
  have h0 := (Memory.byte m loc).isLt
  have h1 := (Memory.byte m (loc + 1)).isLt
  have h : (Memory.byte m loc).toNat <<< 8 ||| (Memory.byte m (loc + 1)).toNat =
      (Memory.byte m loc).toNat <<< 8 + (Memory.byte m (loc + 1)).toNat :=
    (Nat.shiftLeft_add_eq_or_of_lt h1 _).symm
  simp only [Memory.read2, halfOfBytes, BitVec.toNat_or, BitVec.toNat_shiftLeft, BitVec.toNat_setWidth]
  rw [Nat.mod_eq_of_lt (a := (Memory.byte m loc).toNat) (by omega),
    Nat.mod_eq_of_lt (a := (Memory.byte m (loc + 1)).toNat) (by omega),
    Nat.mod_eq_of_lt (by rw [Nat.shiftLeft_eq]; omega), h, Nat.shiftLeft_eq]
  omega

end Sys2Proof.Machine
end

