-- ==== Sys2Proof/Laws/State.lean ====
section
/-! SUPPORT. What each update of the state leaves in each field: one lemma per field per update, true by unfolding the
update once. -/

namespace Sys2Proof.Machine

@[simp] theorem State.emit_mv (s : State) (e : Event) : (s.emit e).mv = s.mv := rfl
@[simp] theorem State.emit_pj (s : State) (e : Event) : (s.emit e).pj = s.pj := rfl
@[simp] theorem State.emit_mvp (s : State) (e : Event) : (s.emit e).mvp = s.mvp := rfl
@[simp] theorem State.emit_tscaleS (s : State) (e : Event) : (s.emit e).tscaleS = s.tscaleS := rfl
@[simp] theorem State.emit_tscaleT (s : State) (e : Event) : (s.emit e).tscaleT = s.tscaleT := rfl
@[simp] theorem State.emit_vc (s : State) (e : Event) : (s.emit e).vc = s.vc := rfl
@[simp] theorem State.emit_tile (s : State) (e : Event) : (s.emit e).tile = s.tile := rfl
@[simp] theorem State.emit_timg (s : State) (e : Event) : (s.emit e).timg = s.timg := rfl
@[simp] theorem State.emit_tlut (s : State) (e : Event) : (s.emit e).tlut = s.tlut := rfl
@[simp] theorem State.emit_prim (s : State) (e : Event) : (s.emit e).prim = s.prim := rfl
@[simp] theorem State.emit_env (s : State) (e : Event) : (s.emit e).env = s.env := rfl
@[simp] theorem State.emit_fill (s : State) (e : Event) : (s.emit e).fill = s.fill := rfl
@[simp] theorem State.emit_cont0 (s : State) (e : Event) : (s.emit e).cont0 = s.cont0 := rfl
@[simp] theorem State.emit_cont1 (s : State) (e : Event) : (s.emit e).cont1 = s.cont1 := rfl
@[simp] theorem State.emit_legacyTex (s : State) (e : Event) : (s.emit e).legacyTex = s.legacyTex := rfl
@[simp] theorem State.emit_stack (s : State) (e : Event) : (s.emit e).stack = s.stack := rfl
@[simp] theorem State.emit_out (s : State) (e : Event) : (s.emit e).out = s.out ++ [e] := rfl
@[simp] theorem State.emit_params (s : State) (e : Event) : (s.emit e).params = s.params := rfl
@[simp] theorem State.emit_resolver (s : State) (e : Event) : (s.emit e).resolver = s.resolver := rfl
@[simp] theorem State.emit_mem (s : State) (e : Event) : (s.emit e).mem = s.mem := rfl
@[simp] theorem State.emit_answers (s : State) (e : Event) : (s.emit e).answers = s.answers := rfl
@[simp] theorem State.emit_draws (s : State) (e : Event) : (s.emit e).draws = s.draws := rfl
@[simp] theorem State.emit_requests (s : State) (e : Event) : (s.emit e).requests = s.requests := rfl
@[simp] theorem State.emit_frames (s : State) (e : Event) : (s.emit e).frames = s.frames := rfl

@[simp] theorem State.setTile_mv (s : State) (t : Fin 8) (d : Tile) : (s.setTile t d).mv = s.mv := rfl
@[simp] theorem State.setTile_pj (s : State) (t : Fin 8) (d : Tile) : (s.setTile t d).pj = s.pj := rfl
@[simp] theorem State.setTile_mvp (s : State) (t : Fin 8) (d : Tile) : (s.setTile t d).mvp = s.mvp := rfl
@[simp] theorem State.setTile_tscaleS (s : State) (t : Fin 8) (d : Tile) : (s.setTile t d).tscaleS = s.tscaleS := rfl
@[simp] theorem State.setTile_tscaleT (s : State) (t : Fin 8) (d : Tile) : (s.setTile t d).tscaleT = s.tscaleT := rfl
@[simp] theorem State.setTile_vc (s : State) (t : Fin 8) (d : Tile) : (s.setTile t d).vc = s.vc := rfl
@[simp] theorem State.setTile_tile (s : State) (t : Fin 8) (d : Tile) : (s.setTile t d).tile = s.tile.set t d := rfl
@[simp] theorem State.setTile_timg (s : State) (t : Fin 8) (d : Tile) : (s.setTile t d).timg = s.timg := rfl
@[simp] theorem State.setTile_tlut (s : State) (t : Fin 8) (d : Tile) : (s.setTile t d).tlut = s.tlut := rfl
@[simp] theorem State.setTile_prim (s : State) (t : Fin 8) (d : Tile) : (s.setTile t d).prim = s.prim := rfl
@[simp] theorem State.setTile_env (s : State) (t : Fin 8) (d : Tile) : (s.setTile t d).env = s.env := rfl
@[simp] theorem State.setTile_fill (s : State) (t : Fin 8) (d : Tile) : (s.setTile t d).fill = s.fill := rfl
@[simp] theorem State.setTile_cont0 (s : State) (t : Fin 8) (d : Tile) : (s.setTile t d).cont0 = s.cont0 := rfl
@[simp] theorem State.setTile_cont1 (s : State) (t : Fin 8) (d : Tile) : (s.setTile t d).cont1 = s.cont1 := rfl
@[simp] theorem State.setTile_legacyTex (s : State) (t : Fin 8) (d : Tile) : (s.setTile t d).legacyTex = s.legacyTex := rfl
@[simp] theorem State.setTile_stack (s : State) (t : Fin 8) (d : Tile) : (s.setTile t d).stack = s.stack := rfl
@[simp] theorem State.setTile_out (s : State) (t : Fin 8) (d : Tile) : (s.setTile t d).out = s.out := rfl
@[simp] theorem State.setTile_params (s : State) (t : Fin 8) (d : Tile) : (s.setTile t d).params = s.params := rfl
@[simp] theorem State.setTile_resolver (s : State) (t : Fin 8) (d : Tile) : (s.setTile t d).resolver = s.resolver := rfl
@[simp] theorem State.setTile_mem (s : State) (t : Fin 8) (d : Tile) : (s.setTile t d).mem = s.mem := rfl
@[simp] theorem State.setTile_answers (s : State) (t : Fin 8) (d : Tile) : (s.setTile t d).answers = s.answers := rfl
@[simp] theorem State.setTile_draws (s : State) (t : Fin 8) (d : Tile) : (s.setTile t d).draws = s.draws := rfl
@[simp] theorem State.setTile_requests (s : State) (t : Fin 8) (d : Tile) : (s.setTile t d).requests = s.requests := rfl
@[simp] theorem State.setTile_frames (s : State) (t : Fin 8) (d : Tile) : (s.setTile t d).frames = s.frames := rfl

@[simp] theorem State.setTex_mv (s : State) (t : Fin 8) (h : Option Handle) : (s.setTex t h).mv = s.mv := rfl
@[simp] theorem State.setTex_pj (s : State) (t : Fin 8) (h : Option Handle) : (s.setTex t h).pj = s.pj := rfl
@[simp] theorem State.setTex_mvp (s : State) (t : Fin 8) (h : Option Handle) : (s.setTex t h).mvp = s.mvp := rfl
@[simp] theorem State.setTex_tscaleS (s : State) (t : Fin 8) (h : Option Handle) : (s.setTex t h).tscaleS = s.tscaleS := rfl
@[simp] theorem State.setTex_tscaleT (s : State) (t : Fin 8) (h : Option Handle) : (s.setTex t h).tscaleT = s.tscaleT := rfl
@[simp] theorem State.setTex_vc (s : State) (t : Fin 8) (h : Option Handle) : (s.setTex t h).vc = s.vc := rfl
@[simp] theorem State.setTex_tile (s : State) (t : Fin 8) (h : Option Handle) : (s.setTex t h).tile = s.tile.set t { s.tileAt t with tex := h } := rfl
@[simp] theorem State.setTex_timg (s : State) (t : Fin 8) (h : Option Handle) : (s.setTex t h).timg = s.timg := rfl
@[simp] theorem State.setTex_tlut (s : State) (t : Fin 8) (h : Option Handle) : (s.setTex t h).tlut = s.tlut := rfl
@[simp] theorem State.setTex_prim (s : State) (t : Fin 8) (h : Option Handle) : (s.setTex t h).prim = s.prim := rfl
@[simp] theorem State.setTex_env (s : State) (t : Fin 8) (h : Option Handle) : (s.setTex t h).env = s.env := rfl
@[simp] theorem State.setTex_fill (s : State) (t : Fin 8) (h : Option Handle) : (s.setTex t h).fill = s.fill := rfl
@[simp] theorem State.setTex_cont0 (s : State) (t : Fin 8) (h : Option Handle) : (s.setTex t h).cont0 = s.cont0 := rfl
@[simp] theorem State.setTex_cont1 (s : State) (t : Fin 8) (h : Option Handle) : (s.setTex t h).cont1 = s.cont1 := rfl
@[simp] theorem State.setTex_legacyTex (s : State) (t : Fin 8) (h : Option Handle) : (s.setTex t h).legacyTex = if t = 0 then h else s.legacyTex := rfl
@[simp] theorem State.setTex_stack (s : State) (t : Fin 8) (h : Option Handle) : (s.setTex t h).stack = s.stack := rfl
@[simp] theorem State.setTex_out (s : State) (t : Fin 8) (h : Option Handle) : (s.setTex t h).out = s.out := rfl
@[simp] theorem State.setTex_params (s : State) (t : Fin 8) (h : Option Handle) : (s.setTex t h).params = s.params := rfl
@[simp] theorem State.setTex_resolver (s : State) (t : Fin 8) (h : Option Handle) : (s.setTex t h).resolver = s.resolver := rfl
@[simp] theorem State.setTex_mem (s : State) (t : Fin 8) (h : Option Handle) : (s.setTex t h).mem = s.mem := rfl
@[simp] theorem State.setTex_answers (s : State) (t : Fin 8) (h : Option Handle) : (s.setTex t h).answers = s.answers := rfl
@[simp] theorem State.setTex_draws (s : State) (t : Fin 8) (h : Option Handle) : (s.setTex t h).draws = s.draws := rfl
@[simp] theorem State.setTex_requests (s : State) (t : Fin 8) (h : Option Handle) : (s.setTex t h).requests = s.requests := rfl
@[simp] theorem State.setTex_frames (s : State) (t : Fin 8) (h : Option Handle) : (s.setTex t h).frames = s.frames := rfl

@[simp] theorem State.takeAnswer_mv (s : State) : (s.takeAnswer).mv = s.mv := rfl
@[simp] theorem State.takeAnswer_pj (s : State) : (s.takeAnswer).pj = s.pj := rfl
@[simp] theorem State.takeAnswer_mvp (s : State) : (s.takeAnswer).mvp = s.mvp := rfl
@[simp] theorem State.takeAnswer_tscaleS (s : State) : (s.takeAnswer).tscaleS = s.tscaleS := rfl
@[simp] theorem State.takeAnswer_tscaleT (s : State) : (s.takeAnswer).tscaleT = s.tscaleT := rfl
@[simp] theorem State.takeAnswer_vc (s : State) : (s.takeAnswer).vc = s.vc := rfl
@[simp] theorem State.takeAnswer_tile (s : State) : (s.takeAnswer).tile = s.tile := rfl
@[simp] theorem State.takeAnswer_timg (s : State) : (s.takeAnswer).timg = s.timg := rfl
@[simp] theorem State.takeAnswer_tlut (s : State) : (s.takeAnswer).tlut = s.tlut := rfl
@[simp] theorem State.takeAnswer_prim (s : State) : (s.takeAnswer).prim = s.prim := rfl
@[simp] theorem State.takeAnswer_env (s : State) : (s.takeAnswer).env = s.env := rfl
@[simp] theorem State.takeAnswer_fill (s : State) : (s.takeAnswer).fill = s.fill := rfl
@[simp] theorem State.takeAnswer_cont0 (s : State) : (s.takeAnswer).cont0 = s.cont0 := rfl
@[simp] theorem State.takeAnswer_cont1 (s : State) : (s.takeAnswer).cont1 = s.cont1 := rfl
@[simp] theorem State.takeAnswer_legacyTex (s : State) : (s.takeAnswer).legacyTex = s.legacyTex := rfl
@[simp] theorem State.takeAnswer_stack (s : State) : (s.takeAnswer).stack = s.stack := rfl
@[simp] theorem State.takeAnswer_out (s : State) : (s.takeAnswer).out = s.out := rfl
@[simp] theorem State.takeAnswer_params (s : State) : (s.takeAnswer).params = s.params := rfl
@[simp] theorem State.takeAnswer_resolver (s : State) : (s.takeAnswer).resolver = s.resolver := rfl
@[simp] theorem State.takeAnswer_mem (s : State) : (s.takeAnswer).mem = s.mem := rfl
@[simp] theorem State.takeAnswer_answers (s : State) : (s.takeAnswer).answers = s.answers.tail := rfl
@[simp] theorem State.takeAnswer_draws (s : State) : (s.takeAnswer).draws = s.draws + 1 := rfl
@[simp] theorem State.takeAnswer_requests (s : State) : (s.takeAnswer).requests = s.requests := rfl
@[simp] theorem State.takeAnswer_frames (s : State) : (s.takeAnswer).frames = s.frames := rfl

@[simp] theorem State.returnFromList_mv (s : State) : (s.returnFromList).mv = s.mv := rfl
@[simp] theorem State.returnFromList_pj (s : State) : (s.returnFromList).pj = s.pj := rfl
@[simp] theorem State.returnFromList_mvp (s : State) : (s.returnFromList).mvp = s.mvp := rfl
@[simp] theorem State.returnFromList_tscaleS (s : State) : (s.returnFromList).tscaleS = s.tscaleS := rfl
@[simp] theorem State.returnFromList_tscaleT (s : State) : (s.returnFromList).tscaleT = s.tscaleT := rfl
@[simp] theorem State.returnFromList_vc (s : State) : (s.returnFromList).vc = s.vc := rfl
@[simp] theorem State.returnFromList_tile (s : State) : (s.returnFromList).tile = s.tile := rfl
@[simp] theorem State.returnFromList_timg (s : State) : (s.returnFromList).timg = s.timg := rfl
@[simp] theorem State.returnFromList_tlut (s : State) : (s.returnFromList).tlut = s.tlut := rfl
@[simp] theorem State.returnFromList_prim (s : State) : (s.returnFromList).prim = s.prim := rfl
@[simp] theorem State.returnFromList_env (s : State) : (s.returnFromList).env = s.env := rfl
@[simp] theorem State.returnFromList_fill (s : State) : (s.returnFromList).fill = s.fill := rfl
@[simp] theorem State.returnFromList_cont0 (s : State) : (s.returnFromList).cont0 = s.cont0 := rfl
@[simp] theorem State.returnFromList_cont1 (s : State) : (s.returnFromList).cont1 = s.cont1 := rfl
@[simp] theorem State.returnFromList_legacyTex (s : State) : (s.returnFromList).legacyTex = s.legacyTex := rfl
@[simp] theorem State.returnFromList_stack (s : State) : (s.returnFromList).stack = popFrames s.stack := rfl
@[simp] theorem State.returnFromList_out (s : State) : (s.returnFromList).out = s.out := rfl
@[simp] theorem State.returnFromList_params (s : State) : (s.returnFromList).params = s.params := rfl
@[simp] theorem State.returnFromList_resolver (s : State) : (s.returnFromList).resolver = s.resolver := rfl
@[simp] theorem State.returnFromList_mem (s : State) : (s.returnFromList).mem = s.mem := rfl
@[simp] theorem State.returnFromList_answers (s : State) : (s.returnFromList).answers = s.answers := rfl
@[simp] theorem State.returnFromList_draws (s : State) : (s.returnFromList).draws = s.draws := rfl
@[simp] theorem State.returnFromList_requests (s : State) : (s.returnFromList).requests = s.requests := rfl
@[simp] theorem State.returnFromList_frames (s : State) : (s.returnFromList).frames = s.frames := rfl

@[simp] theorem State.enter_mv (s : State) (base : Nat) : (s.enter base).mv = s.mv := rfl
@[simp] theorem State.enter_pj (s : State) (base : Nat) : (s.enter base).pj = s.pj := rfl
@[simp] theorem State.enter_mvp (s : State) (base : Nat) : (s.enter base).mvp = s.mvp := rfl
@[simp] theorem State.enter_tscaleS (s : State) (base : Nat) : (s.enter base).tscaleS = s.tscaleS := rfl
@[simp] theorem State.enter_tscaleT (s : State) (base : Nat) : (s.enter base).tscaleT = s.tscaleT := rfl
@[simp] theorem State.enter_vc (s : State) (base : Nat) : (s.enter base).vc = s.vc := rfl
@[simp] theorem State.enter_tile (s : State) (base : Nat) : (s.enter base).tile = s.tile := rfl
@[simp] theorem State.enter_timg (s : State) (base : Nat) : (s.enter base).timg = s.timg := rfl
@[simp] theorem State.enter_tlut (s : State) (base : Nat) : (s.enter base).tlut = s.tlut := rfl
@[simp] theorem State.enter_prim (s : State) (base : Nat) : (s.enter base).prim = s.prim := rfl
@[simp] theorem State.enter_env (s : State) (base : Nat) : (s.enter base).env = s.env := rfl
@[simp] theorem State.enter_fill (s : State) (base : Nat) : (s.enter base).fill = s.fill := rfl
@[simp] theorem State.enter_cont0 (s : State) (base : Nat) : (s.enter base).cont0 = s.cont0 := rfl
@[simp] theorem State.enter_cont1 (s : State) (base : Nat) : (s.enter base).cont1 = s.cont1 := rfl
@[simp] theorem State.enter_legacyTex (s : State) (base : Nat) : (s.enter base).legacyTex = s.legacyTex := rfl
@[simp] theorem State.enter_stack (s : State) (base : Nat) : (s.enter base).stack = ⟨base, 0, false⟩ :: s.stack := rfl
@[simp] theorem State.enter_out (s : State) (base : Nat) : (s.enter base).out = s.out := rfl
@[simp] theorem State.enter_params (s : State) (base : Nat) : (s.enter base).params = s.params := rfl
@[simp] theorem State.enter_resolver (s : State) (base : Nat) : (s.enter base).resolver = s.resolver := rfl
@[simp] theorem State.enter_mem (s : State) (base : Nat) : (s.enter base).mem = s.mem := rfl
@[simp] theorem State.enter_answers (s : State) (base : Nat) : (s.enter base).answers = s.answers := rfl
@[simp] theorem State.enter_draws (s : State) (base : Nat) : (s.enter base).draws = s.draws := rfl
@[simp] theorem State.enter_requests (s : State) (base : Nat) : (s.enter base).requests = s.requests := rfl
@[simp] theorem State.enter_frames (s : State) (base : Nat) : (s.enter base).frames = s.frames := rfl

@[simp] theorem State.recompose_mv (s : State) : (s.recompose).mv = s.mv := rfl
@[simp] theorem State.recompose_pj (s : State) : (s.recompose).pj = s.pj := rfl
@[simp] theorem State.recompose_mvp (s : State) : (s.recompose).mvp = compose s.mv s.pj := rfl
@[simp] theorem State.recompose_tscaleS (s : State) : (s.recompose).tscaleS = s.tscaleS := rfl
@[simp] theorem State.recompose_tscaleT (s : State) : (s.recompose).tscaleT = s.tscaleT := rfl
@[simp] theorem State.recompose_vc (s : State) : (s.recompose).vc = s.vc := rfl
@[simp] theorem State.recompose_tile (s : State) : (s.recompose).tile = s.tile := rfl
@[simp] theorem State.recompose_timg (s : State) : (s.recompose).timg = s.timg := rfl
@[simp] theorem State.recompose_tlut (s : State) : (s.recompose).tlut = s.tlut := rfl
@[simp] theorem State.recompose_prim (s : State) : (s.recompose).prim = s.prim := rfl
@[simp] theorem State.recompose_env (s : State) : (s.recompose).env = s.env := rfl
@[simp] theorem State.recompose_fill (s : State) : (s.recompose).fill = s.fill := rfl
@[simp] theorem State.recompose_cont0 (s : State) : (s.recompose).cont0 = s.cont0 := rfl
@[simp] theorem State.recompose_cont1 (s : State) : (s.recompose).cont1 = s.cont1 := rfl
@[simp] theorem State.recompose_legacyTex (s : State) : (s.recompose).legacyTex = s.legacyTex := rfl
@[simp] theorem State.recompose_stack (s : State) : (s.recompose).stack = s.stack := rfl
@[simp] theorem State.recompose_out (s : State) : (s.recompose).out = s.out := rfl
@[simp] theorem State.recompose_params (s : State) : (s.recompose).params = s.params := rfl
@[simp] theorem State.recompose_resolver (s : State) : (s.recompose).resolver = s.resolver := rfl
@[simp] theorem State.recompose_mem (s : State) : (s.recompose).mem = s.mem := rfl
@[simp] theorem State.recompose_answers (s : State) : (s.recompose).answers = s.answers := rfl
@[simp] theorem State.recompose_draws (s : State) : (s.recompose).draws = s.draws := rfl
@[simp] theorem State.recompose_requests (s : State) : (s.recompose).requests = s.requests := rfl
@[simp] theorem State.recompose_frames (s : State) : (s.recompose).frames = s.frames := rfl

@[simp] theorem State.advance_mv (s : State) (n : Nat) : (s.advance n).mv = s.mv := by
  unfold State.advance; split <;> rfl
@[simp] theorem State.advance_pj (s : State) (n : Nat) : (s.advance n).pj = s.pj := by
  unfold State.advance; split <;> rfl
@[simp] theorem State.advance_mvp (s : State) (n : Nat) : (s.advance n).mvp = s.mvp := by
  unfold State.advance; split <;> rfl
@[simp] theorem State.advance_tscaleS (s : State) (n : Nat) : (s.advance n).tscaleS = s.tscaleS := by
  unfold State.advance; split <;> rfl
@[simp] theorem State.advance_tscaleT (s : State) (n : Nat) : (s.advance n).tscaleT = s.tscaleT := by
  unfold State.advance; split <;> rfl
@[simp] theorem State.advance_vc (s : State) (n : Nat) : (s.advance n).vc = s.vc := by
  unfold State.advance; split <;> rfl
@[simp] theorem State.advance_tile (s : State) (n : Nat) : (s.advance n).tile = s.tile := by
  unfold State.advance; split <;> rfl
@[simp] theorem State.advance_timg (s : State) (n : Nat) : (s.advance n).timg = s.timg := by
  unfold State.advance; split <;> rfl
@[simp] theorem State.advance_tlut (s : State) (n : Nat) : (s.advance n).tlut = s.tlut := by
  unfold State.advance; split <;> rfl
@[simp] theorem State.advance_prim (s : State) (n : Nat) : (s.advance n).prim = s.prim := by
  unfold State.advance; split <;> rfl
@[simp] theorem State.advance_env (s : State) (n : Nat) : (s.advance n).env = s.env := by
  unfold State.advance; split <;> rfl
@[simp] theorem State.advance_fill (s : State) (n : Nat) : (s.advance n).fill = s.fill := by
  unfold State.advance; split <;> rfl
@[simp] theorem State.advance_cont0 (s : State) (n : Nat) : (s.advance n).cont0 = s.cont0 := by
  unfold State.advance; split <;> rfl
@[simp] theorem State.advance_cont1 (s : State) (n : Nat) : (s.advance n).cont1 = s.cont1 := by
  unfold State.advance; split <;> rfl
@[simp] theorem State.advance_legacyTex (s : State) (n : Nat) : (s.advance n).legacyTex = s.legacyTex := by
  unfold State.advance; split <;> rfl
@[simp] theorem State.advance_out (s : State) (n : Nat) : (s.advance n).out = s.out := by
  unfold State.advance; split <;> rfl
@[simp] theorem State.advance_params (s : State) (n : Nat) : (s.advance n).params = s.params := by
  unfold State.advance; split <;> rfl
@[simp] theorem State.advance_resolver (s : State) (n : Nat) : (s.advance n).resolver = s.resolver := by
  unfold State.advance; split <;> rfl
@[simp] theorem State.advance_mem (s : State) (n : Nat) : (s.advance n).mem = s.mem := by
  unfold State.advance; split <;> rfl
@[simp] theorem State.advance_answers (s : State) (n : Nat) : (s.advance n).answers = s.answers := by
  unfold State.advance; split <;> rfl
@[simp] theorem State.advance_draws (s : State) (n : Nat) : (s.advance n).draws = s.draws := by
  unfold State.advance; split <;> rfl
@[simp] theorem State.advance_requests (s : State) (n : Nat) : (s.advance n).requests = s.requests := by
  unfold State.advance; split <;> rfl
@[simp] theorem State.advance_frames (s : State) (n : Nat) : (s.advance n).frames = s.frames := by
  unfold State.advance; split <;> rfl

@[simp] theorem State.release_mv (s : State) (t : Fin 8) : (s.release t).mv = s.mv := by
  unfold State.release; split <;> rfl
@[simp] theorem State.release_pj (s : State) (t : Fin 8) : (s.release t).pj = s.pj := by
  unfold State.release; split <;> rfl
@[simp] theorem State.release_mvp (s : State) (t : Fin 8) : (s.release t).mvp = s.mvp := by
  unfold State.release; split <;> rfl
@[simp] theorem State.release_tscaleS (s : State) (t : Fin 8) : (s.release t).tscaleS = s.tscaleS := by
  unfold State.release; split <;> rfl
@[simp] theorem State.release_tscaleT (s : State) (t : Fin 8) : (s.release t).tscaleT = s.tscaleT := by
  unfold State.release; split <;> rfl
@[simp] theorem State.release_vc (s : State) (t : Fin 8) : (s.release t).vc = s.vc := by
  unfold State.release; split <;> rfl
@[simp] theorem State.release_timg (s : State) (t : Fin 8) : (s.release t).timg = s.timg := by
  unfold State.release; split <;> rfl
@[simp] theorem State.release_tlut (s : State) (t : Fin 8) : (s.release t).tlut = s.tlut := by
  unfold State.release; split <;> rfl
@[simp] theorem State.release_prim (s : State) (t : Fin 8) : (s.release t).prim = s.prim := by
  unfold State.release; split <;> rfl
@[simp] theorem State.release_env (s : State) (t : Fin 8) : (s.release t).env = s.env := by
  unfold State.release; split <;> rfl
@[simp] theorem State.release_fill (s : State) (t : Fin 8) : (s.release t).fill = s.fill := by
  unfold State.release; split <;> rfl
@[simp] theorem State.release_cont0 (s : State) (t : Fin 8) : (s.release t).cont0 = s.cont0 := by
  unfold State.release; split <;> rfl
@[simp] theorem State.release_cont1 (s : State) (t : Fin 8) : (s.release t).cont1 = s.cont1 := by
  unfold State.release; split <;> rfl
@[simp] theorem State.release_stack (s : State) (t : Fin 8) : (s.release t).stack = s.stack := by
  unfold State.release; split <;> rfl
@[simp] theorem State.release_params (s : State) (t : Fin 8) : (s.release t).params = s.params := by
  unfold State.release; split <;> rfl
@[simp] theorem State.release_resolver (s : State) (t : Fin 8) : (s.release t).resolver = s.resolver := by
  unfold State.release; split <;> rfl
@[simp] theorem State.release_mem (s : State) (t : Fin 8) : (s.release t).mem = s.mem := by
  unfold State.release; split <;> rfl
@[simp] theorem State.release_answers (s : State) (t : Fin 8) : (s.release t).answers = s.answers := by
  unfold State.release; split <;> rfl
@[simp] theorem State.release_draws (s : State) (t : Fin 8) : (s.release t).draws = s.draws := by
  unfold State.release; split <;> rfl
@[simp] theorem State.release_requests (s : State) (t : Fin 8) : (s.release t).requests = s.requests := by
  unfold State.release; split <;> rfl
@[simp] theorem State.release_frames (s : State) (t : Fin 8) : (s.release t).frames = s.frames := by
  unfold State.release; split <;> rfl

/-- Advancing a non-empty stack moves the top frame's cursor. -/
theorem State.advance_cons (s : State) (n : Nat) (f : Frame) (fs : List Frame) (h : s.stack = f :: fs) :
    s.advance n = { s with stack := { f with cursor := f.cursor + n } :: fs } := by
  simp [State.advance, h]

end Sys2Proof.Machine
end

