-- ==== Sys2Proof/Laws/Ops.lean ====
section
/-! SUPPORT. For each shared operation, one lemma that says once everything it can do. -/

namespace Sys2Proof.Machine

/-! Tiles -/

@[simp] theorem State.tileAt_emit (s : State) (e : Event) (t : Fin 8) : (s.emit e).tileAt t = s.tileAt t := rfl
@[simp] theorem State.tileAt_takeAnswer (s : State) (t : Fin 8) : s.takeAnswer.tileAt t = s.tileAt t := rfl
@[simp] theorem State.held_emit (s : State) (e : Event) : (s.emit e).held = s.held := rfl
@[simp] theorem State.held_takeAnswer (s : State) : s.takeAnswer.held = s.held := rfl

/-- Reading a tile's descriptor after a descriptor was written. -/
theorem State.tileAt_setTile (s : State) (t k : Fin 8) (d : Tile) :
    (s.setTile t d).tileAt k = if t = k then d else s.tileAt k := by
  simp [State.tileAt, State.setTile, Vector.getElem_set, Fin.ext_iff]

/-- Reading a tile's descriptor after a `tex` was written. -/
theorem State.tileAt_setTex (s : State) (t k : Fin 8) (h : Option Handle) :
    (s.setTex t h).tileAt k = if t = k then { s.tileAt k with tex := h } else s.tileAt k := by
  by_cases hk : t = k
  · subst hk; simp [State.tileAt, State.setTex]
  · have : t.val ≠ k.val := fun h' => hk (Fin.ext h')
    simp [State.tileAt, State.setTex, hk, this]

@[simp] theorem State.tileAt_setTile_same (s : State) (t : Fin 8) (d : Tile) : (s.setTile t d).tileAt t = d := by
  simp [State.tileAt_setTile]

theorem State.tileAt_setTile_other (s : State) (t k : Fin 8) (d : Tile) (h : t ≠ k) :
    (s.setTile t d).tileAt k = s.tileAt k := by
  simp [State.tileAt_setTile, h]

@[simp] theorem State.tileAt_setTex_same (s : State) (t : Fin 8) (h : Option Handle) :
    (s.setTex t h).tileAt t = { s.tileAt t with tex := h } := by
  simp [State.tileAt_setTex]

theorem State.tileAt_setTex_other (s : State) (t k : Fin 8) (h : Option Handle) (hk : t ≠ k) :
    (s.setTex t h).tileAt k = s.tileAt k := by
  simp [State.tileAt_setTex, hk]

/-! Textures -/

/-- The handles held are those of some tile (R51). -/
theorem State.mem_held (s : State) (h : Handle) : h ∈ s.held ↔ ∃ k : Fin 8, (s.tileAt k).tex = some h := by
  simp only [State.held, List.mem_filterMap, Vector.mem_toList_iff, Vector.mem_iff_getElem, State.tileAt]
  constructor
  · rintro ⟨_, ⟨i, hi, rfl⟩, hx⟩; exact ⟨⟨i, hi⟩, hx⟩
  · rintro ⟨k, hk⟩; exact ⟨_, ⟨k.val, k.isLt, rfl⟩, hk⟩

/-- The next answer listed is the handle given, when no tile holds it (R51). -/
theorem State.nextHandle_cons (s : State) (a : Handle) (as : List Handle) (h : s.answers = a :: as)
    (hf : a ∉ s.held) : s.nextHandle = a := by
  simp [State.nextHandle, freshHandle, h, hf]

/-- `Release(t)` does nothing, or releases the one handle held (R186). -/
theorem State.release_cases (s : State) (t : Fin 8) :
    ((s.tileAt t).tex = none ∧ s.release t = s) ∨
    (∃ h, (s.tileAt t).tex = some h ∧ s.release t = (s.emit (.releaseTexture h)).setTex t none) := by
  unfold State.release
  cases h : (s.tileAt t).tex with
  | none => exact .inl ⟨rfl, rfl⟩
  | some x => exact .inr ⟨x, rfl, rfl⟩

/-- After `Release(t)` the tile is as before but holds no texture. -/
theorem State.tileAt_release (s : State) (t k : Fin 8) :
    (s.release t).tileAt k = if t = k then { s.tileAt k with tex := none } else s.tileAt k := by
  rcases s.release_cases t with ⟨h, he⟩ | ⟨h, _, he⟩
  · rw [he]; split
    · next heq => subst heq; rw [← h]
    · rfl
  · rw [he, State.tileAt_setTex]; rfl

/-- `Realize(t)` releases, and then builds nothing, or creates the one texture (R185). -/
theorem State.realize_cases (s : State) (t : Fin 8) :
    (s.realize t = s.release t ∧
      ((s.tileAt t).src = none ∨ (s.tileAt t).width < 1 ∨ (s.tileAt t).height < 1)) ∨
    (∃ loc, (s.tileAt t).src = some loc ∧ 1 ≤ (s.tileAt t).width ∧ 1 ≤ (s.tileAt t).height ∧
      s.realize t = (s.release t).createTexture t
        (realizeBuffer s.mem s.tlut { s.tileAt t with tex := none } loc)) := by
  have hd : (s.release t).tileAt t = { s.tileAt t with tex := none } := by simp [State.tileAt_release]
  unfold State.realize
  cases hs : (s.tileAt t).src with
  | none => left; simp [hd, hs]
  | some loc =>
    by_cases hw : (s.tileAt t).width < 1 ∨ (s.tileAt t).height < 1
    · left; refine ⟨?_, .inr hw⟩; simp [hd, hs, hw]
    · right
      refine ⟨loc, rfl, by omega, by omega, ?_⟩
      simp [hd, hs, hw]

/-- First use: nothing, or a realization (R184). -/
theorem State.ensureRealized_cases (s : State) (t : Fin 8) :
    (s.ensureRealized t = s ∧ ((s.tileAt t).tex ≠ none ∨ (s.tileAt t).src = none)) ∨
    ((s.tileAt t).tex = none ∧ (s.tileAt t).src ≠ none ∧ s.ensureRealized t = s.realize t) := by
  unfold State.ensureRealized
  cases h1 : (s.tileAt t).tex <;> cases h2 : (s.tileAt t).src <;> simp

/-- What `Release`, `Realize` and first use may change: tiles, the legacy register, the trace and the adapter's
answers. -/
def State.sameButTextures (s t : State) : Prop :=
  t = { s with tile := t.tile, legacyTex := t.legacyTex, out := t.out, answers := t.answers, draws := t.draws }

theorem State.release_frame (s : State) (t : Fin 8) : s.sameButTextures (s.release t) := by
  rcases s.release_cases t with ⟨_, he⟩ | ⟨h, _, he⟩ <;> rw [he] <;> rfl

theorem State.realize_frame (s : State) (t : Fin 8) : s.sameButTextures (s.realize t) := by
  have hr := s.release_frame t
  rcases s.realize_cases t with ⟨he, _⟩ | ⟨loc, _, _, _, he⟩
  · rw [he]; exact hr
  · rw [he]
    generalize s.release t = r at *
    unfold State.sameButTextures at *
    rw [hr]; rfl

theorem State.ensureRealized_frame (s : State) (t : Fin 8) : s.sameButTextures (s.ensureRealized t) := by
  rcases s.ensureRealized_cases t with ⟨he, _⟩ | ⟨_, _, he⟩
  · rw [he]; rfl
  · rw [he]; exact s.realize_frame t

/-- The descriptor of the tile realized, and of the others. -/
theorem State.tileAt_realize (s : State) (t k : Fin 8) :
    ∃ h, (s.realize t).tileAt k = if t = k then { s.tileAt k with tex := h } else s.tileAt k := by
  rcases s.realize_cases t with ⟨he, _⟩ | ⟨loc, _, _, _, he⟩
  · exact ⟨none, by rw [he, State.tileAt_release]⟩
  · refine ⟨some (s.release t).nextHandle, ?_⟩
    rw [he]
    simp only [State.createTexture, State.tileAt_setTex, State.tileAt_emit, State.tileAt_takeAnswer,
      State.tileAt_release]
    split <;> rfl

/-- Zeroing a tile: its texture released, its descriptor zero (R300). -/
theorem State.zeroTile_eq (s : State) (t : Fin 8) :
    s.zeroTile t =
      { s with
        tile := s.tile.set t Tile.zero
        legacyTex := if t = 0 ∧ (s.tileAt t).tex ≠ none then none else s.legacyTex
        out := s.out ++ (s.tileAt t).tex.toList.map Event.releaseTexture } := by
  unfold State.zeroTile
  rcases s.release_cases t with ⟨h, he⟩ | ⟨h, h1, he⟩
  · rw [he, h]; simp [State.setTile]
  · rw [he, h1]; simp [State.setTile, State.setTex, State.emit]

/-- The tiles' part of the frame reset (R300). -/
theorem State.foldl_zeroTile (s : State) :
    ∃ lt : Option Handle, allTiles.foldl State.zeroTile s =
      { s with
        tile := Vector.replicate Config.nTiles Tile.zero
        legacyTex := lt
        out := s.out ++ s.held.map Event.releaseTexture } := by
  have hh : s.held = [s.tileAt 0, s.tileAt 1, s.tileAt 2, s.tileAt 3, s.tileAt 4, s.tileAt 5, s.tileAt 6,
      s.tileAt 7].filterMap Tile.tex := by
    have : s.tile.toList = [s.tileAt 0, s.tileAt 1, s.tileAt 2, s.tileAt 3, s.tileAt 4, s.tileAt 5, s.tileAt 6,
        s.tileAt 7] := by
      apply List.ext_getElem
      · simp
      · intro i h1 h2
        simp at h2
        interval_cases i <;> simp [State.tileAt]
    rw [State.held, this]
  refine ⟨(allTiles.foldl State.zeroTile s).legacyTex, ?_⟩
  rw [hh]
  simp only [allTiles, List.foldl, State.zeroTile_eq, State.tileAt, State.mk.injEq, true_and, and_true]
  refine ⟨?_, ?_⟩
  · ext1 i hi
    simp only [Config.nTiles] at hi
    interval_cases i <;> simp
  · have hm : ∀ (a : Tile) (l : List Tile), (a :: l).filterMap Tile.tex = a.tex.toList ++ l.filterMap Tile.tex := by
      intro a l; cases h : a.tex <;> simp [h]
    simp [hm]

/-! The walker -/

/-- DL: four cases (R124). -/
theorem execDl_cases (j : BitVec 1) (addr : Addr) (s : State) :
    (∃ base, s.resolve addr = some base ∧ s.stack.length ≤ 32 ∧ execDl j addr s = .next (s.callList j base)) ∨
    ((s.resolve addr = none ∨ 32 < s.stack.length) ∧ execDl j addr s = .next (s.skipList j)) := by
  unfold execDl
  cases h : s.resolve addr with
  | none => exact .inr ⟨.inl rfl, rfl⟩
  | some base =>
    by_cases hd : s.stack.length ≤ 32
    · refine .inl ⟨base, rfl, hd, ?_⟩
      have : s.depthLeft = true := by simp [State.depthLeft, Config.topDepth, Config.maxDepth]; omega
      simp [this]
    · refine .inr ⟨.inr (by omega), ?_⟩
      have : s.depthLeft = false := by simp [State.depthLeft, Config.topDepth, Config.maxDepth]; omega
      simp [this]

@[simp] theorem markTail_length (l : List Frame) : (markTail l).length = l.length := by cases l <;> rfl

/-- The frames that stay after a return: fewer than before, unless there was none. -/
theorem popFrames_length_le (l : List Frame) : (popFrames l).length ≤ l.length - 1 := by
  unfold popFrames
  have := (List.dropWhile_suffix (p := Frame.tail) (l := l.tail)).length_le
  simpa using this

/-- One source vertex: skipped, or its entry written (R145, R151). -/
theorem State.loadVertex_cases (s : State) (base : Int) (addr : Addr) (i : Nat) :
    (s.loadVertex base addr i = s ∧
      (base + i < 0 ∨ 64 ≤ base + i ∨ s.resolve (vertexAddr addr i) = none)) ∨
    (∃ loc, 0 ≤ base + i ∧ base + i < 64 ∧ s.resolve (vertexAddr addr i) = some loc ∧
      s.loadVertex base addr i =
        { s with
          vc := s.vc.setIfInBounds (base + i).toNat
            (transformVertex s.mvp s.tscaleS s.tscaleT (sourceVertex s.mem loc)) }) := by
  unfold State.loadVertex
  by_cases h : 0 ≤ base + i ∧ base + i < (64 : Int)
  · cases hr : s.resolve (vertexAddr addr i) with
    | none => left; simp
    | some loc =>
      right
      refine ⟨loc, h.1, h.2, rfl, ?_⟩
      simp [h]
  · left
    refine ⟨by simp only [Config.vcSize]; rw [if_neg (by push_cast; exact h)], by omega⟩

/-- A triangle: dropped, or emitted after first use of tile 0 (R265). -/
theorem State.emitTri_cases (s : State) (f0 f1 f2 : BitVec 8) :
    s.emitTri f0 f1 f2 = s ∨
    (∃ a b c, s.vc[cacheIndex f0]? = some a ∧ s.vc[cacheIndex f1]? = some b ∧ s.vc[cacheIndex f2]? = some c ∧
      skipped s.params.wEpsilon a = false ∧ skipped s.params.wEpsilon b = false ∧
      skipped s.params.wEpsilon c = false ∧
      s.emitTri f0 f1 f2 =
        (s.ensureRealized 0).emit
          (.drawTriangle (s.ensureRealized 0).legacyTex (screen a) (screen b) (screen c))) := by
  unfold State.emitTri
  split
  · next a b c ha hb hc =>
    split
    · exact .inl rfl
    · next hs =>
      simp only [Bool.or_eq_true, not_or, Bool.not_eq_true] at hs
      exact .inr ⟨a, b, c, ha, hb, hc, hs.1.1, hs.1.2, hs.2, rfl⟩
  · exact .inl rfl

/-- The continuation words of a textured rectangle, taken from the list being interpreted (R236). -/
theorem State.takeContinuation_cons (s : State) (f : Frame) (fs : List Frame) (h : s.stack = f :: fs) :
    s.takeContinuation =
      { s with
        stack := { f with cursor := f.cursor + 2 } :: fs
        cont0 := Memory.read4 s.mem (f.base + 8 * f.cursor + 4)
        cont1 := Memory.read4 s.mem (f.base + 8 * (f.cursor + 1) + 4) } := by
  simp [State.takeContinuation, State.advance, h]

/-- A textured rectangle: nothing drawn, or one quad between the two depth-test events (R236, R243). -/
theorem State.texrect_cases (s : State) (lrx lry : BitVec 12) (t : Fin 8) (ulx uly : BitVec 12) :
    let r := s.takeContinuation.ensureRealized t
    (s.texrect lrx lry t ulx uly = r ∧
      ((r.tileAt t).tex = none ∨ (r.tileAt t).width < 1 ∨ (r.tileAt t).height < 1)) ∨
    (∃ h, (r.tileAt t).tex = some h ∧ 1 ≤ (r.tileAt t).width ∧ 1 ≤ (r.tileAt t).height ∧
      s.texrect lrx lry t ulx uly = r.drawTexrect (r.tileAt t) h lrx lry ulx uly) := by
  intro r
  unfold State.texrect
  cases hx : (r.tileAt t).tex with
  | none => left; simp [r, hx]
  | some h =>
    by_cases hw : (r.tileAt t).width < 1 ∨ (r.tileAt t).height < 1
    · left; refine ⟨?_, .inr hw⟩; simp [r, hx, hw]
    · right; refine ⟨h, rfl, by omega, by omega, ?_⟩; simp [r, hx, hw]

/-- One step: between passes, the end of a list by its cap, a command, or an unassigned opcode (R121, R122, R128). -/
theorem step_cases (s : State) :
    (s.stack = [] ∧ step s = .next s.betweenPasses) ∨
    (∃ f fs, s.stack = f :: fs ∧ s.params.iterCap ≤ f.cursor ∧ step s = .next s.returnFromList) ∨
    (∃ f fs i, s.stack = f :: fs ∧ f.cursor < s.params.iterCap ∧ s.fetch f = .ok i ∧
      step s = exec i (s.advance 1)) ∨
    (∃ f fs e, s.stack = f :: fs ∧ f.cursor < s.params.iterCap ∧ s.fetch f = .error e ∧
      step s = .next (s.advance 1)) := by
  unfold step
  cases hs : s.stack with
  | nil => exact .inl ⟨rfl, rfl⟩
  | cons f fs =>
    right
    by_cases hc : s.params.iterCap ≤ f.cursor
    · exact .inl ⟨f, fs, rfl, hc, by simp [hc]⟩
    · right
      cases hf : s.fetch f with
      | ok i => exact .inl ⟨f, fs, i, rfl, by omega, hf, by simp [hc, hf]⟩
      | error e => exact .inr ⟨f, fs, e, rfl, by omega, hf, by simp [hc, hf, execUnassigned]⟩

end Sys2Proof.Machine
end

