-- ==== Sys2Proof/Laws/PerInstr.lean ====
section
/-! SUPPORT. Statements about every instruction as syntax, one lemma per constructor. `Assembled`: the encoder writes
0 in every bit R97 to R109 mark "ignored" (R114). -/

namespace Sys2Proof.Laws

/-- The encoding of `i` is an entry an assembler writes: 0 in every ignored bit. -/
def Assembled.Statement (i : Instr) : Prop := assembled i.opcode (encode i).1 (encode i).2 = true

/-- A word put together from two parts has none of the bits of a mask exactly when neither part has. -/
theorem or_and_mask (a b m : Word) : (a ||| b) &&& m = 0#32 ↔ a &&& m = 0#32 ∧ b &&& m = 0#32 := by
  rw [BitVec.and_comm, BitVec.and_or_distrib_left, BitVec.and_comm m a, BitVec.and_comm m b, BitVec.or_eq_zero_iff]

theorem assembled_of (o : Opcode) (w0 w1 : Word) (h0 : w0 &&& o.ignored.1 = 0#32) (h1 : w1 &&& o.ignored.2 = 0#32) :
    assembled o w0 w1 = true := by
  simp [assembled, h0, h1]

/-- Every encoding is an assembler's: each part of each word lies beside the ignored bits. -/
theorem assembled_encode (i : Instr) : Assembled.Statement i := by
  cases i <;> apply assembled_of <;>
    simp (disch := decide) only [encode, encodeParams, encodeW1, Instr.opcode, Opcode.ignored, triple, pair, channels,
      or_and_mask, put_and_mask, BitVec.and_zero, BitVec.zero_and, and_self]

theorem Assembled.noop : Assembled.Statement (.noop) :=
  assembled_encode _

theorem Assembled.vtx (n : BitVec 8) (e : BitVec 7) (addr : Addr) : Assembled.Statement (.vtx n e addr) :=
  assembled_encode _

theorem Assembled.tri1 (i0 i1 i2 : BitVec 8) : Assembled.Statement (.tri1 i0 i1 i2) :=
  assembled_encode _

theorem Assembled.tri2 (i0 i1 i2 i3 i4 i5 : BitVec 8) : Assembled.Statement (.tri2 i0 i1 i2 i3 i4 i5) :=
  assembled_encode _

theorem Assembled.quad (i0 i1 i2 i3 i4 i5 : BitVec 8) : Assembled.Statement (.quad i0 i1 i2 i3 i4 i5) :=
  assembled_encode _

theorem Assembled.texture (scS scT : BitVec 16) : Assembled.Statement (.texture scS scT) :=
  assembled_encode _

theorem Assembled.popmtx : Assembled.Statement (.popmtx) :=
  assembled_encode _

theorem Assembled.mtx (j l p : BitVec 1) (addr : Addr) : Assembled.Statement (.mtx j l p addr) :=
  assembled_encode _

theorem Assembled.dl (j : BitVec 1) (addr : Addr) : Assembled.Statement (.dl j addr) :=
  assembled_encode _

theorem Assembled.endList : Assembled.Statement (.endList) :=
  assembled_encode _

theorem Assembled.spnoop : Assembled.Statement (.spnoop) :=
  assembled_encode _

theorem Assembled.rdphalf1 (data : BitVec 32) : Assembled.Statement (.rdphalf1 data) :=
  assembled_encode _

theorem Assembled.texrect (lrx lry : BitVec 12) (tile : BitVec 3) (ulx uly : BitVec 12) : Assembled.Statement (.texrect lrx lry tile ulx uly) :=
  assembled_encode _

theorem Assembled.texrectm (lrx lry : BitVec 12) (tile : BitVec 3) (ulx uly : BitVec 12) : Assembled.Statement (.texrectm lrx lry tile ulx uly) :=
  assembled_encode _

theorem Assembled.loadsync : Assembled.Statement (.loadsync) :=
  assembled_encode _

theorem Assembled.pipesync : Assembled.Statement (.pipesync) :=
  assembled_encode _

theorem Assembled.tilesync : Assembled.Statement (.tilesync) :=
  assembled_encode _

theorem Assembled.fullsync : Assembled.Statement (.fullsync) :=
  assembled_encode _

theorem Assembled.loadtlut (tile : BitVec 3) (cnt : BitVec 10) : Assembled.Statement (.loadtlut tile cnt) :=
  assembled_encode _

theorem Assembled.rdphalf2 (data : BitVec 32) : Assembled.Statement (.rdphalf2 data) :=
  assembled_encode _

theorem Assembled.settilesize (uls ult : BitVec 12) (tile : BitVec 3) (lrs lrt : BitVec 12) : Assembled.Statement (.settilesize uls ult tile lrs lrt) :=
  assembled_encode _

theorem Assembled.loadblock (uls ult : BitVec 12) (tile : BitVec 3) (lrs dxt : BitVec 12) : Assembled.Statement (.loadblock uls ult tile lrs dxt) :=
  assembled_encode _

theorem Assembled.loadtile (uls ult : BitVec 12) (tile : BitVec 3) (lrs lrt : BitVec 12) : Assembled.Statement (.loadtile uls ult tile lrs lrt) :=
  assembled_encode _

theorem Assembled.settile (fmt : BitVec 3) (siz : BitVec 2) (line tmem : BitVec 9) (tile : BitVec 3) (palette : BitVec 4) (cmt : BitVec 2) (maskt shiftt : BitVec 4) (cms : BitVec 2) (masks shifts : BitVec 4) : Assembled.Statement (.settile fmt siz line tmem tile palette cmt maskt shiftt cms masks shifts) :=
  assembled_encode _

theorem Assembled.fillrect (lrx lry ulx uly : BitVec 12) : Assembled.Statement (.fillrect lrx lry ulx uly) :=
  assembled_encode _

theorem Assembled.setfillcolor (fill : BitVec 32) : Assembled.Statement (.setfillcolor fill) :=
  assembled_encode _

theorem Assembled.setprimcolor (r g b a : BitVec 8) : Assembled.Statement (.setprimcolor r g b a) :=
  assembled_encode _

theorem Assembled.setenvcolor (r g b a : BitVec 8) : Assembled.Statement (.setenvcolor r g b a) :=
  assembled_encode _

theorem Assembled.settimg (fmt : BitVec 3) (siz : BitVec 2) (wm1 : BitVec 12) (addr : Addr) : Assembled.Statement (.settimg fmt siz wm1 addr) :=
  assembled_encode _
end Sys2Proof.Laws
end

