-- ==== Sys2Proof/Tests/Slice0.lean ====
section
/-! SUPPORT. The model's own tests: the ill-formed inputs that each check refuses, a word of the spec for every command,
one step for every command on a small state, and for every statement with hypotheses a state that meets them. Expected
values are those of the spec's examples and of spec/95_test_vectors.md (the vector is named), or follow from the cited
rule by hand. -/

open Sys2Proof Sys2Proof.Machine

namespace Sys2Proof.Tests

/-! ## Helpers -/

/-- A number as `w` bytes, most significant first. -/
def bytes (n w : Nat) : List Byte := (List.range w).reverse.map fun k => BitVec.ofNat 8 (n / 256 ^ k)

/-- The bytes of stream entries. -/
def stream (es : List (Nat × Nat)) : List Byte := es.flatMap fun e => bytes e.1 4 ++ bytes e.2 4

/-- Memory with blocks placed in it. -/
def place (blocks : List (Nat × List Byte)) : Memory := blocks.foldl (fun m b => Memory.writeBytes m b.1 b.2) []

/-- A pass at its first command, the list at 0x1000. -/
def running (m : Memory) : State :=
  { State.reset with mem := m, stack := [⟨0x1000, 0, false⟩], answers := [1, 2, 3] }

/-- A pass over a list and blocks of data. -/
def listed (es : List (Nat × Nat)) (blocks : List (Nat × List Byte)) : State :=
  running (place ((0x1000, stream es) :: blocks))

/-- What a step or a command leaves. -/
def got (o : Host.Outcome State Fault Refusal) : State :=
  match o with
  | .next t => t
  | _ => State.reset

/-- A tile made to hold a texture of a given size. -/
def textured (s : State) (t : Fin 8) (w h : Int) (hd : Handle) : State :=
  (s.setTile t { s.tileAt t with width := w, height := h }).setTex t (some hd)

/-- A tile bound to a source, of a given size, with no texture. -/
def sourced (s : State) (t : Fin 8) (w h : Int) (loc : Nat) : State :=
  s.setTile t { s.tileAt t with width := w, height := h, src := some loc, fmt := 4#3, siz := 1#2 }

/-- A vertex of the cache at a clip position, the rest zero. -/
def vertexAt (x y z w : F32) : VtxEntry := { VtxEntry.zero with x := x, y := y, z := z, w := w }

/-- The cache of group G of spec/95_test_vectors.md: `VC[i] = (i, 0, 0, 1)` for i = 0 to 3, `VC[63] = (0, 0, 0, 1)`. -/
def groupG : State :=
  { running [] with
    vc := ((((State.reset.vc.set 0 (vertexAt 0#32 0#32 0#32 0x3F800000#32)).set 1
      (vertexAt 0x3F800000#32 0#32 0#32 0x3F800000#32)).set 2 (vertexAt 0x40000000#32 0#32 0#32 0x3F800000#32)).set 3
      (vertexAt 0x40400000#32 0#32 0#32 0x3F800000#32)).set 63 (vertexAt 0#32 0#32 0#32 0x3F800000#32) }

/-- The screen x of each triangle of a trace, and its texture. -/
def triangles (s : State) : List (Option Handle × F32 × F32 × F32) :=
  s.out.filterMap fun e =>
    match e with
    | .drawTriangle t a b c => some (t, a.x, b.x, c.x)
    | _ => none

/-- The corners (x, y, u, v) of each quad of a trace, and its texture. -/
def quads (s : State) : List (Option Handle × List (F32 × F32 × F32 × F32)) :=
  s.out.filterMap fun e =>
    match e with
    | .drawQuad t a b c d => some (t, [a, b, c, d].map fun v => (v.x, v.y, v.u, v.v))
    | _ => none

/-! ## Well-formedness: each check refuses an ill-formed term -/

theorem test_wf_assembled : assembled .vtx 0x01003006#32 0x00003000#32 = true := by decide
theorem test_wf_ignored_bit_of_w0 : assembled .vtx 0x01003007#32 0x00003000#32 = false := by decide
theorem test_wf_ignored_bit_of_w1 : assembled .settile 0xF5480200#32 0x80000000#32 = false := by decide
theorem test_wf_params : Params.wf ⟨1, 0x00000001#32⟩ = true := by decide
theorem test_wf_cap_zero : Params.wf ⟨0, 0x35800000#32⟩ = false := by decide
theorem test_wf_epsilon_zero : Params.wf ⟨1000, 0x00000000#32⟩ = false := by decide
theorem test_wf_epsilon_infinite : Params.wf ⟨1000, 0x7F800000#32⟩ = false := by decide
theorem test_wf_epsilon_negative : Params.wf ⟨1000, 0x80000001#32⟩ = false := by decide
theorem test_wf_region : Region.wf ⟨0, 2 ^ 32, 0⟩ = true := by decide
theorem test_wf_region_empty : Region.wf ⟨0x3000, 0, 0⟩ = false := by decide
theorem test_wf_region_past_the_top : Region.wf ⟨1, 2 ^ 32, 0⟩ = false := by decide

/-! ## Decoding: the spec's words (R97 to R109 and their examples), one for every command -/

theorem test_decode_noop : decodeEntry 0x00000000#32 0x12345678#32 = .ok .noop := rfl
theorem test_decode_vtx : decodeEntry 0x010FF0FE#32 0x00003000#32 = .ok (.vtx 255#8 127#7 0x3000#32) := rfl
theorem test_decode_vtx_low : decodeEntry 0x01003002#32 0x00003000#32 = .ok (.vtx 3#8 1#7 0x3000#32) := rfl
theorem test_decode_tri1 : decodeEntry 0x05800002#32 0x00000000#32 = .ok (.tri1 128#8 0#8 2#8) := rfl
theorem test_decode_tri2 : decodeEntry 0x060002FE#32 0x00020406#32 = .ok (.tri2 0#8 2#8 254#8 2#8 4#8 6#8) := rfl
theorem test_decode_quad : decodeEntry 0x07000204#32 0x000204FF#32 = .ok (.quad 0#8 2#8 4#8 2#8 4#8 255#8) := rfl
theorem test_decode_texture : decodeEntry 0xD7000000#32 0x80004000#32 = .ok (.texture 0x8000#16 0x4000#16) := rfl
theorem test_decode_popmtx : decodeEntry 0xD8000000#32 0x00000040#32 = .ok .popmtx := rfl
theorem test_decode_mtx : decodeEntry 0xDA000006#32 0x00002000#32 = .ok (.mtx 1#1 1#1 0#1 0x2000#32) := rfl
theorem test_decode_mtx_mode : decodeEntry 0xDA000002#32 0x00002040#32 = .ok (.mtx 0#1 1#1 0#1 0x2040#32) := rfl
theorem test_decode_dl : decodeEntry 0xDE010000#32 0x00001200#32 = .ok (.dl 1#1 0x1200#32) := rfl
theorem test_decode_end : decodeEntry 0xDF000000#32 0x00000000#32 = .ok .endList := rfl
theorem test_decode_spnoop : decodeEntry 0xE0000000#32 0#32 = .ok .spnoop := rfl
theorem test_decode_rdphalf1 : decodeEntry 0xE1000000#32 0xDEADBEEF#32 = .ok (.rdphalf1 0xDEADBEEF#32) := rfl
theorem test_decode_texrect :
    decodeEntry 0xE40A80D0#32 0x00028050#32 = .ok (.texrect 168#12 208#12 0#3 40#12 80#12) := rfl
theorem test_decode_texrectm :
    decodeEntry 0xE5102042#32 0x07002002#32 = .ok (.texrectm 258#12 66#12 7#3 2#12 2#12) := rfl
theorem test_decode_loadsync : decodeEntry 0xE6000000#32 0#32 = .ok .loadsync := rfl
theorem test_decode_pipesync : decodeEntry 0xE7000000#32 0#32 = .ok .pipesync := rfl
theorem test_decode_tilesync : decodeEntry 0xE8000000#32 0#32 = .ok .tilesync := rfl
theorem test_decode_fullsync : decodeEntry 0xE9000000#32 0#32 = .ok .fullsync := rfl
theorem test_decode_loadtlut : decodeEntry 0xF0000000#32 0x033FC000#32 = .ok (.loadtlut 3#3 255#10) := rfl
theorem test_decode_rdphalf2 : decodeEntry 0xF1000000#32 0x04000400#32 = .ok (.rdphalf2 0x04000400#32) := rfl
theorem test_decode_settilesize :
    decodeEntry 0xF2008000#32 0x01004000#32 = .ok (.settilesize 8#12 0#12 1#3 4#12 0#12) := rfl
theorem test_decode_loadblock :
    decodeEntry 0xF3000000#32 0x07003000#32 = .ok (.loadblock 0#12 0#12 7#3 3#12 0#12) := rfl
theorem test_decode_loadtile :
    decodeEntry 0xF4000000#32 0x0100C00C#32 = .ok (.loadtile 0#12 0#12 1#3 12#12 12#12) := rfl

/-- R103 written out bit by bit: op 11110101, fmt 011, siz 01, ignored 0, line 101010101, tmem 010101010; ignored 00000,
tile 101, palette 1100, cmt 10, maskt 0011, shiftt 1010, cms 01, masks 0110, shifts 1001. -/
theorem test_decode_settile :
    decodeEntry 0xF56AAAAA#32 0x05C8E969#32 =
      .ok (.settile 3#3 1#2 0x155#9 0x0AA#9 5#3 12#4 2#2 3#4 10#4 1#2 6#4 9#4) := rfl

theorem test_decode_fillrect :
    decodeEntry 0xF6028002#32 0x00029003#32 = .ok (.fillrect 40#12 2#12 41#12 3#12) := rfl
theorem test_decode_setfillcolor : decodeEntry 0xF7000000#32 0xFFFCFFFC#32 = .ok (.setfillcolor 0xFFFCFFFC#32) := rfl
theorem test_decode_setprimcolor :
    decodeEntry 0xFA000000#32 0xFF8040C0#32 = .ok (.setprimcolor 255#8 128#8 64#8 192#8) := rfl
theorem test_decode_setenvcolor :
    decodeEntry 0xFB000000#32 0x000000FF#32 = .ok (.setenvcolor 0#8 0#8 0#8 255#8) := rfl
theorem test_decode_settimg : decodeEntry 0xFD880001#32 0x00005000#32 = .ok (.settimg 4#3 1#2 1#12 0x5000#32) := rfl

theorem test_decode_unassigned : decodeEntry 0xD9000000#32 0x00020000#32 = .error (.unassigned 0xD9#8) := rfl
theorem test_decode_truncated : decode [0xDF#8, 0#8, 0#8] = .error (.truncated 3) := rfl

/-- The words of the example of R178, by the encoder (R114). -/
theorem test_encode_settimg : encode (.settimg 0#3 2#2 0#12 0x3000#32) = (0xFD100000#32, 0x00003000#32) := rfl
theorem test_encode_texrect : encode (.texrect 168#12 208#12 0#3 40#12 80#12) = (0xE40A80D0#32, 0x00028050#32) := rfl

/-- R115: the pseudo-instructions of the example of R236, of vector W4 and of G2. -/
theorem test_pseudo :
    (asmTexrect3 0#3 40#12 80#12 168#12 208#12 0#16 0#16 1024#16 1024#16).map encode =
      [(0xE40A80D0#32, 0x00028050#32), (0xE1000000#32, 0#32), (0xF1000000#32, 0x04000400#32)] ∧
    encode (asmJump 0#32) = (0xDE010000#32, 0#32) ∧ encode (asmCall 0#32) = (0xDE000000#32, 0#32) ∧
    encode (asmTri1v 63#7 1#7 2#7) = (0x057E0204#32, 0#32) := ⟨rfl, rfl, rfl, rfl⟩

theorem test_table_word : decodeTableWord 64 0xFA000000FF8040C0 = some (.setprimcolor 255#8 128#8 64#8 192#8) := rfl
theorem test_table_word_unassigned : decodeTableWord 64 0xD900000000020000 = none := rfl

/-! ## Floats: groups M, C and G -/

/-- M2, M9 (a tie), M3, M8. -/
theorem test_wire_elements :
    wireElement 0xFFFF#16 0x8000#16 = 0xBF000000#32 ∧ wireElement 0x0100#16 0x0001#16 = 0x43800000#32 ∧
    wireElement 0x7FFF#16 0xFFFF#16 = 0x47000000#32 ∧ wireElement 0xFFFF#16 0xFFFF#16 = 0xB7800000#32 := by
  decide +kernel

/-- C6, C8 (a negative zero), C11. -/
theorem test_tex_coords :
    texCoord 32767 0xFFFF#16 = 0x447FFD00#32 ∧ texCoord (-100) 0x0000#16 = 0x80000000#32 ∧
    texCoord 3 0x5555#16 = 0x3CFFFF00#32 := by decide +kernel

/-- G12 and G14. -/
theorem test_screen :
    (screen (vertexAt 0x3F800000#32 0x40000000#32 0x40400000#32 0x40E00000#32)).x = 0x4336DB6E#32 ∧
    (screen (vertexAt 0x3F800000#32 0x40000000#32 0x40400000#32 0x40E00000#32)).y = 0x42AB6DB6#32 ∧
    (screen (vertexAt 0x3F800000#32 0x40000000#32 0x40400000#32 0x40E00000#32)).z = 0x3EDB6DB8#32 ∧
    (screen (vertexAt 0x3F800000#32 0#32 0#32 0x3A83126F#32)).x = 0x481C67FF#32 := by decide +kernel

/-- Overflow gives an infinity, underflow a subnormal or a zero (R153): the largest value doubled, the smallest normal
halved, the smallest subnormal halved (a tie, to even). -/
theorem test_float_ends :
    fmul 0x7F7FFFFF#32 0x40000000#32 = 0x7F800000#32 ∧ fmul 0x00800000#32 0x3F000000#32 = 0x00400000#32 ∧
    fmul 0x00000001#32 0x3F000000#32 = 0#32 ∧ fdiv 0x3F800000#32 0x80000000#32 = 0xFF800000#32 := by decide +kernel

/-- R262: the comparison is ordered and strict, and both zeros are 0. -/
theorem test_flt :
    flt 0x35800000#32 0x35800000#32 = false ∧ flt 0x80000000#32 0#32 = false ∧ flt 0xBF800000#32 0#32 = true ∧
    flt 0x7FC00000#32 0x3F800000#32 = false := by decide

/-! ## Texels: group T -/

theorem test_texel_rgba16 :
    decodeTexel (place [(0x5000, bytes 0xF80007C1 4)]) State.reset.tlut 0#3 2#2 0#4 0x5000 1 =
      ⟨0#8, 248#8, 0#8, 255#8⟩ := by decide +kernel
theorem test_texel_ia4 :
    decodeTexel (place [(0x5000, bytes 0x89 1)]) State.reset.tlut 3#3 0#2 0#4 0x5000 1 =
      ⟨146#8, 146#8, 146#8, 255#8⟩ := by decide +kernel
theorem test_texel_ci4 :
    decodeTexel (place [(0x5000, bytes 0x0B 1)]) (State.reset.tlut.set 0xAB 0xFFFE#16) 2#3 0#2 0xA#4 0x5000 1 =
      ⟨248#8, 248#8, 248#8, 0#8⟩ := by decide +kernel

/-! ## One step for every command -/

/-- R123: END empties the stack of a top-level list. -/
theorem test_end : (got (step (listed [(0xDF000000, 0)] []))).stack = [] := by decide +kernel

/-- Vector W4: a jump to nothing ends its list. -/
theorem test_dl_jump_unresolved : (got (step (listed [(0xDE010000, 0)] []))).stack = [] := by decide +kernel

/-- R124: a call. -/
theorem test_dl_call :
    (got (step (listed [(0xDE000000, 0x1100)] []))).stack = [⟨0x1100, 0, false⟩, ⟨0x1000, 1, false⟩] := by
  decide +kernel

/-- R124, R125 (ii): at depth 32 a jump enters nothing and ends the list; every caller marked `tail` ends too. -/
theorem test_dl_depth :
    (got (exec (.dl 1#1 0x1000#32) { running [] with stack := List.replicate 33 ⟨0x1000, 1, true⟩ })).stack = [] := by
  decide +kernel

/-- Vector W11: the no-ops and an unassigned opcode only move the cursor. -/
theorem test_noops :
    ∀ w0 ∈ [0xD9000000, 0x00000000, 0xE0000000, 0xE6000000, 0xE7000000, 0xE8000000, 0xE9000000, 0xE1000000, 0xF1000000],
      (got (step (listed [(w0, 0x04000400)] []))).stack = [⟨0x1000, 1, false⟩] ∧
      (got (step (listed [(w0, 0x04000400)] []))).cont1 = 0#32 := by decide +kernel

/-- Vector W7: at the cap nothing is fetched. -/
theorem test_cap :
    (got (step { running [] with stack := [⟨0x1000, 1000, false⟩] })).stack = [] := by decide +kernel

/-- R143: replace the projection, M2 in its corner. -/
theorem test_mtx_replace :
    (got (exec (.mtx 1#1 1#1 0#1 0x2000#32)
      (running (place [(0x2000, bytes (0xFFFF * 256 ^ 62 + 0x8000 * 256 ^ 30) 64)])))).pj[0][0] = 0xBF000000#32 := by
  decide +kernel

/-- R143: the loaded matrix, 1 at (0, 1), is the left factor of the old modelview, 2 at (1, 2). -/
theorem test_mtx_multiply_left :
    let old : Mat := Mat.of fun i j => if i = 1 ∧ j = 2 then 0x40000000#32 else 0#32
    (got (exec (.mtx 0#1 0#1 1#1 0x2000#32)
      { running (place [(0x2000, bytes (256 ^ 60) 64)]) with mv := old })).mv[0][2] = 0x40000000#32 := by decide +kernel

/-- R144. -/
theorem test_popmtx :
    (got (exec .popmtx { running [] with mv := Mat.of fun _ _ => 0x40000000#32 })).mv = identity ∧
    (got (exec .popmtx { running [] with mv := Mat.of fun _ _ => 0x40000000#32 })).mvp = identity := by decide +kernel

/-- Vector V8. -/
theorem test_vtx :
    (got (exec (.vtx 1#8 1#7 0x2000#32)
      (running (place [(0x2000, bytes 0x000AFFEC001E00000040FFE011223344 16)])))).vc[0] =
      ⟨0x41200000#32, 0xC1A00000#32, 0x41F00000#32, 0x3F800000#32, 0x3FFFFF00#32, 0xBF7FFF00#32,
       ⟨0x11#8, 0x22#8, 0x33#8, 0x44#8⟩⟩ := by decide +kernel

/-- Vector V3: index 64 is skipped, not wrapped. -/
theorem test_vtx_range :
    (got (exec (.vtx 2#8 65#7 0x2FF0#32)
      (running (place [(0x2FF0, bytes 0x00010001000100000000000001010101 16), (0x3000, bytes 0x00020002 16)])))).vc[63].x =
      0x3F800000#32 ∧
    (got (exec (.vtx 2#8 65#7 0x2FF0#32)
      (running (place [(0x2FF0, bytes 0x00010001000100000000000001010101 16), (0x3000, bytes 0x00020002 16)])))).vc[0] =
      VtxEntry.zero := by decide +kernel

/-- R152. -/
theorem test_texture :
    (got (exec (.texture 0x8000#16 0x4000#16) (running []))).tscaleS = 0x8000#16 ∧
    (got (exec (.texture 0x8000#16 0x4000#16) (running []))).tscaleT = 0x4000#16 := by decide

/-- R178, the example. -/
theorem test_settimg :
    (got (exec (.settimg 0#3 2#2 0#12 0x3000#32) (running []))).timg = ⟨0x3000#32, 0#3, 2#2, 1#13⟩ := by decide
theorem test_settimg_stride :
    (got (exec (.settimg 0#3 2#2 4095#12 0#32) (running []))).timg.stride = 4096#13 := by decide

/-- R179: the fields of `test_decode_settile` in the tile named. -/
theorem test_settile :
    (got (exec (.settile 3#3 1#2 0x155#9 0x0AA#9 5#3 12#4 2#2 3#4 10#4 1#2 6#4 9#4) (running []))).tileAt 5 =
      { Tile.zero with
        fmt := 3#3, siz := 1#2, line := 0x155#9, tmem := 0x0AA#9, palette := 12#4, cmt := 2#2, maskt := 3#4
        shiftt := 10#4, cms := 1#2, masks := 6#4, shifts := 9#4 } := by decide

/-- R180 on an unbound tile, vectors Z2 (width) and Z6 (height): bound from `TIMG`, nothing emitted. -/
theorem test_settilesize_unbound :
    let t := got (exec (.settilesize 3#12 4095#12 7#3 124#12 0#12) { running [] with timg := ⟨0x5000#32, 0#3, 0#2, 1#13⟩ })
    (t.tileAt 7).width = 32 ∧ (t.tileAt 7).height = -1022 ∧ (t.tileAt 7).src = some 0x5000 ∧ t.out = [] := by decide

/-- R180, R185 on a bound tile: vector S1, step (b), the old texture released. -/
theorem test_settilesize_bound :
    (got (exec (.settilesize 0#12 0#12 1#3 4#12 0#12)
      ((sourced (running (place [(0x5000, bytes 0x4080 2)])) 1 2 2 0x5000).setTex 1 (some 9)))).out =
      [.releaseTexture 9,
       .createTexture [0x40#8, 0x40#8, 0x40#8, 0xFF#8, 0x80#8, 0x80#8, 0x80#8, 0xFF#8] 2 1 1] := by decide +kernel

/-- R181 and R182: bind, and unbind when the address does not resolve. -/
theorem test_loadtile :
    ((got (exec (.loadtile 0#12 0#12 1#3 12#12 12#12)
      { running [] with timg := ⟨0x3000#32, 0#3, 2#2, 1#13⟩ })).tileAt 1).src = some 0x3000 := by decide
theorem test_loadblock :
    ((got (exec (.loadblock 0#12 0#12 7#3 3#12 0#12)
      (sourced (running []) 7 1 1 0x5000))).tileAt 7).src = none := by decide

/-- Vector L1. -/
theorem test_loadtlut :
    let t := got (exec (.loadtlut 0#3 0#10)
      { running (place [(0x4000, bytes 0x01080F16 4)]) with
        timg := ⟨0x4000#32, 0#3, 2#2, 1#13⟩, tlut := Vector.replicate 256 0xEEEE#16 })
    t.tlut[0] = 0x0108#16 ∧ t.tlut[1] = 0xEEEE#16 := by decide +kernel

/-- Vector F6. -/
theorem test_fillrect :
    quads (got (exec (.fillrect 40#12 2#12 41#12 3#12) { running [] with fill := 0x003F003F#32 })) =
      [(none, [(0x41240000#32, 0x3F400000#32, 0#32, 0#32), (0x41200000#32, 0x3F400000#32, 0#32, 0#32),
               (0x41200000#32, 0x3F000000#32, 0#32, 0#32), (0x41240000#32, 0x3F000000#32, 0#32, 0#32)])] := by
  decide +kernel

/-- Vector F2. -/
theorem test_fillrect_sentinel :
    (got (exec (.fillrect 1280#12 960#12 0#12 0#12) { running [] with fill := 0xFFFCFFFC#32 })).out = [] := by
  decide +kernel

/-- Vector X3: u bits 0x3D480000 and 0x3EC38000, v bits 0xBE480000 and 0xBF990000; the cursor three entries on. -/
theorem test_texrect :
    let t := got (step (textured
      (listed [(0xE4102042, 0x07002002), (0xE1000000, 0x0064FF9C), (0xF1000000, 0x0155FC00)] []) 7 64 16 77))
    quads t =
      [(some 77, [(0x3F000000#32, 0x3F000000#32, 0x3D480000#32, 0xBE480000#32),
                  (0x42810000#32, 0x3F000000#32, 0x3EC38000#32, 0xBE480000#32),
                  (0x42810000#32, 0x41840000#32, 0x3EC38000#32, 0xBF990000#32),
                  (0x3F000000#32, 0x41840000#32, 0x3D480000#32, 0xBF990000#32)])] ∧
    t.stack = [⟨0x1000, 3, false⟩] := by decide +kernel

/-- Vector X6: no texture, no event, the continuation consumed. -/
theorem test_texrect_unbound :
    let t := got (step (listed [(0xE40A80D0, 0x00028050), (0xDF000000, 0), (0xF1000000, 0x04000400)] []))
    t.out = [] ∧ t.cont1 = 0x04000400#32 ∧ t.stack = [⟨0x1000, 3, false⟩] := by decide +kernel

/-- Vector X5: nothing mirrored. -/
theorem test_texrectm :
    quads (got (step (textured
      (listed [(0xE50A80D0, 0x00028050), (0xE1000000, 0), (0xF1000000, 0x04000400)] []) 0 32 32 77))) =
      [(some 77, [(0x41200000#32, 0x41A00000#32, 0#32, 0#32), (0x42280000#32, 0x41A00000#32, 0x3F800000#32, 0#32),
                  (0x42280000#32, 0x42500000#32, 0x3F800000#32, 0x3F800000#32),
                  (0x41200000#32, 0x42500000#32, 0#32, 0x3F800000#32)])] := by decide +kernel

/-- R240 to R242, the examples. -/
theorem test_colours :
    (got (exec (.setfillcolor 0xFFFCFFFC#32) (running []))).fill = 0xFFFCFFFC#32 ∧
    (got (exec (.setprimcolor 255#8 128#8 64#8 192#8) (running []))).prim = ⟨255#8, 128#8, 64#8, 192#8⟩ ∧
    (got (exec (.setenvcolor 0#8 0#8 0#8 255#8) (running []))).env = ⟨0#8, 0#8, 0#8, 255#8⟩ := by decide

/-- Vectors G1 and G2: an index out of range, and 127 halved to 63. -/
theorem test_tri1 :
    triangles (got (exec (.tri1 128#8 0#8 2#8) groupG)) = [] ∧
    triangles (got (exec (.tri1 127#8 2#8 4#8) groupG)) = [(none, 0x43200000#32, 0x43A00000#32, 0x43F00000#32)] := by
  decide +kernel

/-- Vector S2: the first triangle makes tile 0's texture. -/
theorem test_tri1_realizes :
    triangles (got (exec (.tri1 0#8 0#8 0#8)
      { sourced (running (place [(0x5000, bytes 0x40 1)])) 0 1 1 0x5000 with vc := groupG.vc })) =
      [(some 1, 0x43200000#32, 0x43200000#32, 0x43200000#32)] := by decide +kernel

/-- Vector G3. -/
theorem test_tri2 :
    triangles (got (exec (.tri2 0#8 2#8 254#8 2#8 4#8 6#8) groupG)) =
      [(none, 0x43A00000#32, 0x43F00000#32, 0x44200000#32)] := by decide +kernel

/-- Vector G4. -/
theorem test_quad :
    triangles (got (exec (.quad 0#8 2#8 4#8 2#8 4#8 255#8) groupG)) =
      [(none, 0x43200000#32, 0x43A00000#32, 0x43F00000#32)] := by decide +kernel

/-- R300, R301: a pass starts by releasing what the last one left, in ascending tile order. -/
theorem test_pass_start :
    let s := { textured (textured State.reset 5 1 1 50) 2 1 1 20 with
      requests := [⟨0x1000#32, [⟨0, 2 ^ 32, 0⟩], []⟩] }
    (got (step s)).out = [.releaseTexture 20, .releaseTexture 50] ∧
    (got (step s)).stack = [⟨0x1000, 0, false⟩] := by decide +kernel

/-- The word placed is the command run (notes/assumptions/1.md). -/
theorem test_with_fetch_word :
    (got (step (State.reset.withFetchWord 64 0xFA000000FF8040C0))).prim = ⟨255#8, 128#8, 64#8, 192#8⟩ := by
  decide +kernel

/-! ## Witnesses: for every statement with hypotheses, states and operands that meet them all. Where a statement has
several clauses, one for each, at the ends of its range. -/

/-- A pass whose first command is a NOOP. -/
def atNoop : State := listed [(0, 0)] []

/-- That a step has a next state, shown on the first command of a pass. -/
theorem step_atNoop : step atNoop = .next (atNoop.advance 1) := rfl

theorem witness_EncodeGivesBackEveryAssembledEntry :
    decodeEntry 0x010FF0FE#32 0x00003000#32 = .ok (.vtx 255#8 127#7 0x3000#32) ∧
    assembled .vtx 0x010FF0FE#32 0x00003000#32 = true := ⟨rfl, by decide⟩

theorem witness_IgnoredBitsDoNotChangeTheCommand : Opcode.ofCode (field 0xF2008000#32 24 8) = some .settilesize := by
  decide

theorem witness_OpcodeByteAloneDecidesTheCommand :
    field 0xFE000000#32 24 8 ∉ assignedBytes ∧ field 0x02000000#32 24 8 ∉ assignedBytes ∧
    field 0xFD000000#32 24 8 ∈ assignedBytes ∧ field 0#32 24 8 ∈ assignedBytes := by decide

/-- The last entry below the cap. -/
theorem witness_StepRunsTheDecodedCommand :
    let s := { running (place [(0x1000 + 8 * 999, stream [(0xFB000000, 0x000000FF)])]) with stack := [⟨0x1000, 999, false⟩] }
    s.stack = [⟨0x1000, 999, false⟩] ∧ 999 < s.params.iterCap ∧
    decode (Memory.entryBytes s.mem (0x1000 + 8 * 999)) = .ok (.setenvcolor 0#8 0#8 0#8 255#8) :=
  ⟨rfl, by decide, rfl⟩

theorem witness_UnassignedOpcodeOnlyMovesTheCursor :
    let s := { running (place [(0x1000 + 8 * 999, stream [(0xD9000000, 0x00020000)])]) with stack := [⟨0x1000, 999, false⟩] }
    s.stack = [⟨0x1000, 999, false⟩] ∧ 999 < s.params.iterCap ∧
    Memory.byte s.mem (0x1000 + 8 * 999) ∉ assignedBytes := ⟨rfl, by decide, by decide +kernel⟩

theorem witness_IterationCapEndsTheListAsEndDoes :
    let s := { running [] with stack := [⟨0x1000, 1000, false⟩] }
    s.stack = ⟨0x1000, 1000, false⟩ :: [] ∧ s.params.iterCap ≤ 1000 := ⟨rfl, by decide⟩

/-- With marked callers above a caller that is not, and with marked callers alone. -/
theorem witness_EndPopsTheListAndItsTailCallers :
    let marked : List Frame := [⟨0x2000, 3, true⟩, ⟨0x3000, 4, true⟩]
    (∀ g ∈ marked, g.tail = true) ∧
    (∀ g, ([⟨0x4000, 5, false⟩] : List Frame).head? = some g → g.tail = false) ∧
    (∀ g, ([] : List Frame).head? = some g → g.tail = false) := by
  refine ⟨by decide, ?_, ?_⟩ <;> simp

/-- 32 frames and an address that resolves; 33 frames; an address that does not. -/
theorem witness_DlEntersOrSkipsTheSubList :
    let f : Frame := ⟨0x1000, 1, false⟩
    (running []).resolve 0x1000#32 = some 0x1000 ∧ (f :: List.replicate 31 f).length ≤ 32 ∧
    32 < (f :: List.replicate 32 f).length ∧ (running []).resolve 0#32 = none := by decide

theorem witness_StackNeverHoldsMoreThan33Frames :
    let s := { atNoop with stack := List.replicate 33 ⟨0x1000, 0, false⟩ }
    s.stack.length ≤ 33 ∧ step s = .next (s.advance 1) := ⟨by decide, rfl⟩

/-- A call and a jump, each to a list that is just END, with 32 frames. -/
theorem witness_CallsComeBackAndJumpsDoNot :
    let f : Frame := ⟨0x1000, 0, false⟩
    let s := fun w0 => { listed [(w0, 0x1200)] [(0x1200, stream [(0xDF000000, 0)])] with stack := f :: List.replicate 31 f }
    f.tail = false ∧ (List.replicate 31 f).length < 32 ∧ f.cursor < (s 0xDE000000).params.iterCap ∧
    decode (Memory.entryBytes (s 0xDE000000).mem (f.base + 8 * f.cursor)) = .ok (.dl 0#1 0x1200#32) ∧
    decode (Memory.entryBytes (s 0xDE010000).mem (f.base + 8 * f.cursor)) = .ok (.dl 1#1 0x1200#32) ∧
    (s 0xDE000000).resolve 0x1200#32 = some 0x1200 ∧ (s 0xDE010000).resolve 0x1200#32 = some 0x1200 ∧
    decode (Memory.entryBytes (s 0xDE000000).mem 0x1200) = .ok .endList ∧
    decode (Memory.entryBytes (s 0xDE010000).mem 0x1200) = .ok .endList :=
  ⟨rfl, by decide, by decide, rfl, rfl, rfl, rfl, rfl, rfl⟩

theorem witness_EveryPassTerminates : atNoop.stack = [⟨0x1000, 0, false⟩] := rfl

theorem witness_MemoryAndResolverAreConstantDuringAPass :
    (atNoop.stack ≠ [] ∧ step atNoop = .next (atNoop.advance 1)) ∧ exec .noop atNoop = .next atNoop :=
  ⟨⟨by decide, rfl⟩, rfl⟩

theorem witness_TraceOnlyGrows : step atNoop = .next (atNoop.advance 1) := rfl

/-- The invariant holds of a pass that runs. -/
theorem inv_atNoop : atNoop.Inv where
  mvp_eq := by decide +kernel
  legacy_eq := by decide
  stack_le := by decide
  top_open := by intro f fs h; cases h; rfl
  sizes := by simp only [sizeInRange]; decide
  handles := by decide
  stride := by decide
  mem_wf := by decide +kernel
  requests_wf := by intro p hp; cases hp
  params_wf := by decide

theorem witness_EveryStepKeepsTheInvariant : atNoop.Inv ∧ step atNoop = .next (atNoop.advance 1) := ⟨inv_atNoop, rfl⟩

theorem witness_MvpIsAlwaysTheProduct :
    atNoop.mvp = compose atNoop.mv atNoop.pj ∧ step atNoop = .next (atNoop.advance 1) ∧
    exec (.setfillcolor 1#32) atNoop = .next { atNoop with fill := 1#32 } ∧
    (Instr.setfillcolor 1#32).opcode ∉ [Opcode.mtx, Opcode.popmtx] := ⟨inv_atNoop.mvp_eq, rfl, rfl, by decide⟩

/-- One command outside all the lists, one inside all the lists of texture writers. -/
theorem witness_RegistersAreWrittenOnlyByTheirCommands :
    exec .popmtx atNoop = .next ({ atNoop with mv := identity }.recompose) ∧
    Instr.popmtx.opcode ∉ textureWriters ++ emitters ++ tileWriters ++ [.texrect, .texrectm, .endList, .dl] ∧
    Instr.popmtx.opcode ∉ [Opcode.vtx, .texture, .settimg, .loadtlut, .setprimcolor, .setenvcolor, .setfillcolor] :=
  ⟨rfl, by decide, by decide⟩

/-- A command for tile 0 and the tile 7, and the other way round. -/
theorem witness_OtherTilesAreUntouched :
    (∃ t, exec (.loadtile 0#12 0#12 0#3 0#12 0#12) atNoop = .next t) ∧
    Instr.tileWritten (.loadtile 0#12 0#12 0#3 0#12 0#12) ≠ some 7 ∧
    Instr.tileWritten (.loadtile 0#12 0#12 7#3 0#12 0#12) ≠ some 0 := ⟨⟨_, rfl⟩, by decide, by decide⟩

/-- Two states that differ in `PRIM`, and only in what is not read. -/
theorem witness_UnreadRegistersHaveNoInfluence :
    let s' := { atNoop with prim := ⟨1#8, 2#8, 3#8, 4#8⟩ }
    atNoop.erase = s'.erase ∧ atNoop.prim ≠ s'.prim ∧ step atNoop = .next (atNoop.advance 1) :=
  ⟨rfl, by decide, rfl⟩

/-- A pass whose list resolves and one whose list does not. -/
theorem witness_PassStartResetsTheFrame :
    let p : PassRequest := ⟨0x1000#32, [⟨0, 2 ^ 32, 0⟩], []⟩
    let s := { textured State.reset 3 1 1 50 with requests := [p, { p with top := 0#32 }] }
    s.stack = [] ∧ s.requests = p :: [{ p with top := 0#32 }] ∧
    ({ s with resolver := p.resolver }).resolve p.top = some 0x1000 ∧
    ({ s with resolver := p.resolver }).resolve 0#32 = none := ⟨rfl, rfl, by decide, by decide⟩

theorem witness_IdleBlockHoldsItsState : State.reset.stack = [] ∧ State.reset.requests = [] := ⟨rfl, rfl⟩

theorem witness_LoadedCommandIsTheNextToRun :
    0 < State.reset.params.iterCap ∧ 0 < ({ State.reset with params := ⟨1, 1#32⟩ } : State).params.iterCap := by decide

/-- A tie that goes to the even side, the last fraction below the overflow threshold, and the threshold; finite
operands at the ends of their range, a sum and a difference that cancel, and a divisor other than zero. -/
theorem witness_RoundingIsToNearestTiesToEven :
    (0 < 2 ∧ roundRatio false (2 ^ 25 + 1) 2 = 0x4B800000#32 ∧ fisFinite 0x4B800000#32 = true ∧
      fisFinite 0x4B800001#32 = true) ∧
    fisInf (roundRatio true ((2 ^ 25 - 1) * 2 ^ 103 - 1) 1) = false ∧
    fisInf (roundRatio true ((2 ^ 25 - 1) * 2 ^ 103) 1) = true ∧
    (fisFinite 0x7F7FFFFF#32 = true ∧ fisFinite 0xFF7FFFFF#32 = true ∧ fisFinite 0x00000001#32 = true) ∧
    fval 0x7F7FFFFF#32 + fval 0xFF7FFFFF#32 = 0 ∧ fval 0x80000000#32 - fval 0x00000000#32 = 0 ∧
    fval 0x80000001#32 ≠ 0 := by decide +kernel

theorem witness_FixedPointInputsConvertExactly :
    (2 ^ 24 : Int).natAbs ≤ 2 ^ 24 ∧ (-(2 ^ 24) : Int).natAbs ≤ 2 ^ 24 := by decide

theorem witness_WireElementIsNearestToItsFixedPointValue : fisFinite 0x47000000#32 = true := by decide

/-- An address that does not resolve and one that does. -/
theorem witness_MtxLoadsOrMultipliesItsTarget :
    (running []).resolve 0#32 = none ∧ (running []).resolve 0xFFFFFFFF#32 = some 0xFFFFFFFF := by decide

theorem witness_IdentityIsNeutralForProducts :
    ∀ i j : Fin 4, plainFloat (Mat.of fun i j => if i = j then 0x7F7FFFFF#32 else 0x80000001#32)[i][j] := by
  unfold plainFloat; decide +kernel

theorem witness_PopmtxLeavesTheProjection :
    ∀ i j : Fin 4, plainFloat ({ running [] with pj := Mat.of fun _ _ => 0xC0000000#32 } : State).pj[i][j] := by
  unfold plainFloat; decide +kernel

/-- Source vertices that land at 0 and at 63, and one whose address does not resolve. -/
theorem witness_VtxLoadsEachEntryInRange :
    (128 < (255#8).toNat ∧ ((127#7).toNat : Int) - (255#8).toNat + (128 : Nat) = (0 : Fin 64).val ∧
      (running []).resolve (0x3000#32 + BitVec.ofNat 32 (16 * 128)) = some 0x3800) ∧
    (191 < (255#8).toNat ∧ ((127#7).toNat : Int) - (255#8).toNat + (191 : Nat) = (63 : Fin 64).val ∧
      (running []).resolve (0x3000#32 + BitVec.ofNat 32 (16 * 191)) = some 0x3BF0) ∧
    (1 < (2#8).toNat ∧ ((2#7).toNat : Int) - (2#8).toNat + (1 : Nat) = (1 : Fin 64).val ∧
      (running []).resolve (0xFFFFFFF0#32 + BitVec.ofNat 32 (16 * 1)) = none) := by decide

/-- Tiles 0 and 7, named and not named. -/
theorem witness_SettileWritesItsFields :
    (7 : Fin 8).val = (7#3).toNat ∧ (0 : Fin 8).val ≠ (7#3).toNat ∧ (0 : Fin 8).val = (0#3).toNat := by decide

theorem witness_LoadsBindTheCurrentImage : (7 : Fin 8).val = (7#3).toNat ∧ (6 : Fin 8).val ≠ (7#3).toNat := by decide

theorem witness_SettilesizeOnAnUnboundTileBindsIt :
    (7 : Fin 8).val = (7#3).toNat ∧ ((running []).tileAt 7).src = none := by decide

/-- Tile 0 and another tile bound; a width of 1, and of 0; tile 0 with a texture to release; an answer that no other
tile holds. -/
theorem witness_SettilesizeOnABoundTileRebuildsIt :
    let s := { textured (sourced (running []) 0 1 1 0x5000) 3 1 1 7 with answers := [8, 7] }
    let s' := { s with tile := s.tile.set 0 { s.tileAt 0 with tex := some 9 }, legacyTex := some 9 }
    (0 : Fin 8).val = (0#3).toNat ∧ (s.tileAt 0).src = some 0x5000 ∧ (s.tileAt 0).tex = none ∧
    (s'.tileAt 0).src = some 0x5000 ∧ (s'.tileAt 0).tex ≠ none ∧
    ((sourced (running []) 3 1 1 0x5000).tileAt 3).src = some 0x5000 ∧
    (s.answers = 8 :: [7] ∧ ∀ k' : Fin 8, k' ≠ 0 → (s.tileAt k').tex ≠ some 8) ∧
    (1 : Int) = ((3#12).toNat / 4 : Nat) - ((0#12).toNat / 4 : Nat) + 1 ∧
    (0 : Int) = ((4#12).toNat / 4 : Nat) - ((8#12).toNat / 4 : Nat) + 1 := by decide +kernel

theorem witness_RealizedBufferIsRowMajor :
    let d := { Tile.zero with width := 3, height := 2 }
    d.width = ((3 : Nat) : Int) ∧ d.height = ((2 : Nat) : Int) ∧ 1 < 2 ∧ 2 < 3 := by decide

/-- An address that resolves and one that does not; the last entry loaded and the first that is not. -/
theorem witness_LoadtlutCopiesEntriesFromZero :
    ({ running [] with timg := ⟨0x4000#32, 0#3, 0#2, 1#13⟩ } : State).resolve 0x4000#32 = some 0x4000 ∧
    (running []).resolve (running []).timg.addr = none ∧ (254 : Fin 256).val ≤ (254#10).toNat ∧
    (254#10).toNat < (255 : Fin 256).val ∧ (255 : Fin 256).val ≤ (1023#10).toNat := by decide

/-- The last entry loaded named by a texel. -/
theorem witness_Ci8AfterLoadtlutIsRgba16 :
    let s := { running (place [(0x4000, bytes 0xF80007C1 4), (0x5000, bytes 0x01 1)]) with
      timg := ⟨0x4000#32, 0#3, 2#2, 1#13⟩ }
    s.resolve s.timg.addr = some 0x4000 ∧ (∃ t, exec (.loadtlut 0#3 1#10) s = .next t) ∧
    (Memory.byte s.mem (0x5000 + 0)).toNat ≤ (1#10).toNat := ⟨by decide, ⟨_, rfl⟩, by decide +kernel⟩

/-- An even and an odd texel of memory that was placed, and palette entries at both ends. -/
theorem witness_TexelFormatsDecodeAsTheTable :
    let m := place [(0x5000, bytes 0xF80007C1 4)]
    0x07C1 = 256 * (Memory.byte m (0x5000 + 2 * 1)).toNat + (Memory.byte m (0x5000 + 2 * 1 + 1)).toNat ∧
    0x00 = (Memory.byte m (0x5000 + 1)).toNat ∧
    0x8 = (Memory.byte m (0x5000 + 1 / 2)).toNat % 16 ∧ 0xF = (Memory.byte m (0x5000 + 0 / 2)).toNat / 16 ∧
    State.reset.tlut[0x00]? = some 0#16 ∧ State.reset.tlut[16 * (15#4).toNat + 0xF]? = some 0#16 := by decide +kernel

theorem witness_OtherTexelPairsAreMagenta :
    (((0#3).toNat, (0#2).toNat) ∉ [(0, 2), (0, 3), (3, 2), (3, 1), (3, 0), (4, 1), (4, 0), (2, 1), (2, 0)]) ∧
    (((7#3).toNat, (3#2).toNat) ∉ [(0, 2), (0, 3), (3, 2), (3, 1), (3, 0), (4, 1), (4, 0), (2, 1), (2, 0)]) := by decide

/-- The sentinel, and the word next to it. -/
theorem witness_FillrectDrawsUnlessSentinel :
    ({ running [] with fill := 0xFFFCFFFC#32 } : State).fill = 0xFFFCFFFC#32 ∧
    ({ running [] with fill := 0xFFFCFFFD#32 } : State).fill ≠ 0xFFFCFFFC#32 := by decide

/-- The smallest size. -/
theorem witness_TexrectDrawsARealizedTile :
    let s := textured (listed [(0xE4102042, 0x07002002), (0xE1000000, 0), (0xF1000000, 0)] []) 7 1 1 77
    s.stack = [⟨0x1000, 0, false⟩] ∧ (7 : Fin 8).val = (7#3).toNat ∧ (s.tileAt 7).tex = some 77 ∧
    1 ≤ (s.tileAt 7).width ∧ 1 ≤ (s.tileAt 7).height := by decide +kernel

/-- Each of the three grounds: no texture and no source; a width of 0; a height of 0. -/
theorem witness_TexrectWithoutATextureDrawsNothing :
    let s := running []
    s.stack = [⟨0x1000, 0, false⟩] ∧ (3 : Fin 8).val = (3#3).toNat ∧
    ((s.tileAt 3).tex = none ∧ (s.tileAt 3).src = none) ∧
    ((textured s 3 0 1 77).tileAt 3).width < 1 ∧ ((textured s 3 1 0 77).tileAt 3).height < 1 := by decide

/-- Tile 0 and tile 7. -/
theorem witness_TexrectRealizesABoundTileAtFirstUse :
    ∀ k ∈ [(0 : Fin 8), 7],
      let s := sourced (running []) k 1 1 0x5000
      s.stack = [⟨0x1000, 0, false⟩] ∧ (s.tileAt k).tex = none ∧ (s.tileAt k).src = some 0x5000 ∧
      1 ≤ (s.tileAt k).width ∧ 1 ≤ (s.tileAt k).height := by decide +kernel

theorem witness_UnitStepIsOneTexelPerPixel :
    let s := textured (listed [(0xE40A80D0, 0x00028050), (0xE1000000, 0), (0xF1000000, 0x04000400)] []) 0 32 16 77
    let f : Frame := ⟨0x1000, 1, false⟩
    (0 : Fin 8).val = (0#3).toNat ∧ (s.tileAt 0).tex = some 77 ∧ 1 ≤ (s.tileAt 0).width ∧ 1 ≤ (s.tileAt 0).height ∧
    Memory.read4 s.mem (f.base + 8 * f.cursor + 4) = 0#32 ∧
    Memory.read4 s.mem (f.base + 8 * f.cursor + 12) = 0x04000400#32 := by decide +kernel

/-- An index at the end of its range and past it; a `w` at the guard, and below it; tile 0 unbound, with a texture,
bound with no size, and bound with a size. -/
theorem witness_Tri1EmitsOrDropsItsTriangle :
    128 ≤ (128#8).toNat ∧
    groupG.vc[(127#8).toNat / 2]? = some (vertexAt 0#32 0#32 0#32 0x3F800000#32) ∧
    flt (fabs 0x357FFFFF#32) groupG.params.wEpsilon = true ∧ flt (fabs 0xB5800000#32) groupG.params.wEpsilon = false ∧
    (groupG.tileAt 0).src = none ∧ ((textured groupG 0 1 1 7).tileAt 0).tex ≠ none ∧
    ((sourced groupG 0 0 1 0x5000).tileAt 0).width < 1 ∧ ((sourced groupG 0 1 0 0x5000).tileAt 0).height < 1 ∧
    ((sourced groupG 0 1 1 0x5000).tileAt 0).tex = none ∧ ((sourced groupG 0 1 1 0x5000).tileAt 0).src = some 0x5000 ∧
    1 ≤ ((sourced groupG 0 1 1 0x5000).tileAt 0).width ∧ 1 ≤ ((sourced groupG 0 1 1 0x5000).tileAt 0).height := by
  decide +kernel

theorem witness_TrianglesWriteOnlyTileZerosTexture :
    (Instr.tri2 0#8 2#8 254#8 2#8 4#8 6#8).opcode ∈ [Opcode.tri1, .tri2, .quad] ∧
    ∃ t, exec (.tri2 0#8 2#8 254#8 2#8 4#8 6#8) groupG = .next t := ⟨by decide, ⟨_, rfl⟩⟩

/-- A vertex with `w = -0.0` named by the second field; a `w` just below the guard, and at it. -/
theorem witness_ZeroWVertexIsNeverDrawn :
    let s := { groupG with vc := groupG.vc.set 5 (vertexAt 0#32 0#32 0#32 0x80000000#32) }
    s.params.wf = true ∧ s.vc[(10#8).toNat / 2]? = some (vertexAt 0#32 0#32 0#32 0x80000000#32) ∧
    (vertexAt 0#32 0#32 0#32 0x80000000#32).w = 0x80000000#32 ∧
    ((fmag 0xB57FFFFF#32 : Int) < fval s.params.wEpsilon ∧ ¬(fmag 0x35800000#32 : Int) < fval s.params.wEpsilon) := by
  decide +kernel

end Sys2Proof.Tests
end

section
/-! SUPPORT. The grid of magnitudes: the finite values in order, continued upward without end, and the position on it
that rounding chooses (R10). -/

namespace Sys2Proof.Machine

/-- The magnitude at position `b` of the grid, in units of 2^-149: `fmag` of a value whose 31 bits below the sign are
`b`, with no end to the exponent field. -/
def gridMag (b : Nat) : Nat := if b / 2 ^ 23 = 0 then b % 2 ^ 23 else (b % 2 ^ 23 + 2 ^ 23) * 2 ^ (b / 2 ^ 23 - 1)

theorem fmag_eq_gridMag (a : F32) : fmag a = gridMag (fmagBits a) := rfl

/-- A mantissa of 24 bits, or one carried up to 2^24, at its place on the grid. -/
theorem gridMag_mantissa (m e : Nat) (hm : m ≤ 2 ^ 24) (he : e = 0 ∨ 2 ^ 23 ≤ m) :
    gridMag (m + e * 2 ^ 23) = m * 2 ^ e := by
  unfold gridMag
  rcases (by omega : m < 2 ^ 23 ∨ (2 ^ 23 ≤ m ∧ m < 2 ^ 24) ∨ m = 2 ^ 24) with h | ⟨h, h'⟩ | rfl
  · obtain rfl : e = 0 := by omega
    rw [if_pos (by omega)]
    omega
  · have hdiv : (m + e * 2 ^ 23) / 2 ^ 23 = e + 1 := by omega
    have hmod : (m + e * 2 ^ 23) % 2 ^ 23 + 2 ^ 23 = m := by omega
    rw [hdiv, hmod, if_neg (by omega), Nat.add_sub_cancel]
  · have hdiv : (2 ^ 24 + e * 2 ^ 23) / 2 ^ 23 = e + 2 := by omega
    have hmod : (2 ^ 24 + e * 2 ^ 23) % 2 ^ 23 = 0 := by omega
    rw [hdiv, hmod, if_neg (by omega), show e + 2 - 1 = e + 1 from rfl, Nat.pow_succ]
    ring

/-- Every position is that of a mantissa of at most 24 bits. -/
theorem exists_mantissa (b : Nat) : ∃ m e, m < 2 ^ 24 ∧ (e = 0 ∨ 2 ^ 23 ≤ m) ∧ b = m + e * 2 ^ 23 := by
  by_cases h : b < 2 ^ 23
  · exact ⟨b, 0, by omega, .inl rfl, by omega⟩
  · exact ⟨b % 2 ^ 23 + 2 ^ 23, b / 2 ^ 23 - 1, by omega, .inr (by omega), by omega⟩

theorem gridMag_strictMono : StrictMono gridMag := by
  refine strictMono_nat_of_lt_succ fun b => ?_
  obtain ⟨m, e, hm, he, rfl⟩ := exists_mantissa b
  rw [gridMag_mantissa m e (by omega) he, show m + e * 2 ^ 23 + 1 = (m + 1) + e * 2 ^ 23 by omega,
    gridMag_mantissa (m + 1) e (by omega) (by omega)]
  exact Nat.mul_lt_mul_of_pos_right (Nat.lt_succ_self m) (by positivity)

/-- Every number of at most 24 bits, scaled by a power of two, is on the grid. -/
theorem exists_gridMag (k : Nat) : ∀ m ≤ 2 ^ 24, ∃ b ≤ 2 ^ 24 + k * 2 ^ 23, gridMag b = m * 2 ^ k := by
  induction k with
  | zero => exact fun m hm => ⟨m, by omega, gridMag_mantissa m 0 hm (.inl rfl)⟩
  | succ k ih =>
    intro m hm
    by_cases h : 2 ^ 23 ≤ m
    · exact ⟨m + (k + 1) * 2 ^ 23, by omega, gridMag_mantissa m (k + 1) hm (.inr h)⟩
    · obtain ⟨b, hb, hg⟩ := ih (2 * m) (by omega)
      exact ⟨b, hb.trans (by omega), by rw [hg, Nat.pow_succ]; ring⟩

/-- A power of two is `j` steps of the exponent field. -/
theorem gridMag_add_exponent (b j : Nat) (h : 2 ^ 23 ≤ b) : gridMag (b + j * 2 ^ 23) = gridMag b * 2 ^ j := by
  obtain ⟨m, e, hm, he, rfl⟩ := exists_mantissa b
  have hm' : 2 ^ 23 ≤ m := by omega
  rw [gridMag_mantissa m e (by omega) he, show m + e * 2 ^ 23 + j * 2 ^ 23 = m + (e + j) * 2 ^ 23 by ring,
    gridMag_mantissa m (e + j) (by omega) (.inr hm'), Nat.pow_add, Nat.mul_assoc]

/-- The largest finite magnitude and the first one past it. -/
theorem gridMag_last_finite : gridMag 0x7F7FFFFF = (2 ^ 24 - 1) * 2 ^ 253 :=
  gridMag_mantissa (2 ^ 24 - 1) 253 (by decide) (by decide)

theorem gridMag_overflow : gridMag 0x7F800000 = 2 ^ 24 * 2 ^ 253 :=
  gridMag_mantissa (2 ^ 24) 253 (by decide) (by decide)

/-- `b` is the position nearest to `t / den`, the even one of two as near. -/
structure NearestAt (b t den : Nat) : Prop where
  near : ∀ c, ((gridMag b * den : Nat) - t : Int).natAbs ≤ ((gridMag c * den : Nat) - t : Int).natAbs
  even : ∀ c, c ≠ b →
    ((gridMag b * den : Nat) - t : Int).natAbs = ((gridMag c * den : Nat) - t : Int).natAbs → b % 2 = 0

/-- `nearestEven` rounds down or up by the remainder, a tie to the even side. -/
theorem nearestEven_cases (n d : Nat) :
    (nearestEven n d = n / d ∧ (2 * (n % d) < d ∨ (2 * (n % d) = d ∧ n / d % 2 = 0))) ∨
    (nearestEven n d = n / d + 1 ∧ (d < 2 * (n % d) ∨ (2 * (n % d) = d ∧ n / d % 2 = 1))) := by
  unfold nearestEven
  rcases Nat.lt_trichotomy (2 * (n % d)) d with h | h | h
  · exact .inl ⟨by simp [h], .inl h⟩
  · rcases Nat.mod_two_eq_zero_or_one (n / d) with h2 | h2
    · exact .inl ⟨by simp [h, h2], .inr ⟨h, h2⟩⟩
    · exact .inr ⟨by simp [h, h2], .inr ⟨h, h2⟩⟩
  · exact .inr ⟨by simp [h, Nat.lt_asymm h], .inl h⟩

/-- Between two neighbours on the grid, the nearer one, or the even one of a tie, is nearest of all. -/
theorem nearestAt_of_neighbours (lo t den b : Nat) (hd : 0 < den) (hlo : gridMag lo * den ≤ t)
    (hhi : t < gridMag (lo + 1) * den)
    (hb : (b = lo ∧ (2 * t < gridMag lo * den + gridMag (lo + 1) * den ∨
              (2 * t = gridMag lo * den + gridMag (lo + 1) * den ∧ lo % 2 = 0))) ∨
          (b = lo + 1 ∧ (gridMag lo * den + gridMag (lo + 1) * den < 2 * t ∨
              (2 * t = gridMag lo * den + gridMag (lo + 1) * den ∧ lo % 2 = 1)))) :
    NearestAt b t den := by
  have hmono : StrictMono fun c => gridMag c * den := fun c d h =>
    Nat.mul_lt_mul_of_pos_right (gridMag_strictMono h) hd
  have place : ∀ c, c = lo ∨ c = lo + 1 ∨ gridMag c * den < gridMag lo * den ∨
      gridMag (lo + 1) * den < gridMag c * den := by
    intro c
    rcases (by omega : c = lo ∨ c = lo + 1 ∨ c < lo ∨ lo + 1 < c) with h | h | h | h
    · exact .inl h
    · exact .inr (.inl h)
    · exact .inr (.inr (.inl (hmono h)))
    · exact .inr (.inr (.inr (hmono h)))
  constructor
  · intro c
    rcases hb with ⟨rfl, hb⟩ | ⟨rfl, hb⟩ <;> rcases place c with rfl | rfl | h | h <;> omega
  · intro c hc heq
    rcases hb with ⟨rfl, hb⟩ | ⟨rfl, hb⟩ <;> rcases place c with rfl | rfl | h | h <;> omega

/-- The position `roundRatio` chooses for `t / den` units of 2^-149, before an overflow is cut to infinity. -/
def roundBits (t den : Nat) : Nat :=
  let e := Nat.log2 (t / den) - 23
  nearestEven t (den * 2 ^ e) + e * 2 ^ 23

theorem roundRatio_eq (neg : Bool) (num den : Nat) :
    roundRatio neg num den = fpack neg (min (roundBits (num * 2 ^ 149) den) 0x7F800000) := rfl

/-- The mantissa kept has 24 bits, all of them unless no bit is dropped. -/
theorem kept_mantissa (x : Nat) :
    x / 2 ^ (Nat.log2 x - 23) < 2 ^ 24 ∧ (Nat.log2 x - 23 = 0 ∨ 2 ^ 23 ≤ x / 2 ^ (Nat.log2 x - 23)) := by
  have hpos : 0 < 2 ^ (Nat.log2 x - 23) := by positivity
  constructor
  · rw [Nat.div_lt_iff_lt_mul hpos, ← Nat.pow_add]
    exact Nat.lt_of_lt_of_le Nat.lt_log2_self (Nat.pow_le_pow_right (by decide) (by omega))
  · refine or_iff_not_imp_left.mpr fun h => ?_
    have hx : x ≠ 0 := by rintro rfl; simp at h
    rw [Nat.le_div_iff_mul_le hpos, ← Nat.pow_add, ← Nat.le_log2 hx]
    omega

/-- The position `roundRatio` chooses is the nearest one, ties to even. -/
theorem nearestAt_roundBits (t den : Nat) (hd : 0 < den) : NearestAt (roundBits t den) t den := by
  simp only [roundBits]
  obtain ⟨hlt, hge⟩ := kept_mantissa (t / den)
  generalize Nat.log2 (t / den) - 23 = e at *
  rw [Nat.div_div_eq_div_mul] at hlt hge
  have hdiv := Nat.div_add_mod t (den * 2 ^ e)
  have hmod := Nat.mod_lt t (by positivity : 0 < den * 2 ^ e)
  have hround := nearestEven_cases t (den * 2 ^ e)
  generalize t / (den * 2 ^ e) = q at *
  generalize t % (den * 2 ^ e) = r at *
  have hlo : gridMag (q + e * 2 ^ 23) * den = den * 2 ^ e * q := by
    rw [gridMag_mantissa q e (by omega) hge]; ring
  have hhi : gridMag (q + e * 2 ^ 23 + 1) * den = den * 2 ^ e * q + den * 2 ^ e := by
    rw [show q + e * 2 ^ 23 + 1 = (q + 1) + e * 2 ^ 23 by omega, gridMag_mantissa (q + 1) e (by omega) (by omega)]
    ring
  refine nearestAt_of_neighbours (q + e * 2 ^ 23) t den _ hd (by omega) (by omega) ?_
  rw [hlo, hhi]
  generalize den * 2 ^ e * q = dq at *
  omega

/-- The nearest position is that of an infinity exactly from the midpoint above the largest finite value upward. -/
theorem NearestAt.overflow_iff {b t den : Nat} (h : NearestAt b t den) (hd : 0 < den) :
    0x7F800000 ≤ b ↔ (2 ^ 25 - 1) * 2 ^ 252 * den ≤ t := by
  have hlast := h.near 0x7F7FFFFF
  have hnext := h.near 0x7F800000
  have htie := h.even 0x7F800000
  rw [gridMag_last_finite] at hlast
  rw [gridMag_overflow] at hnext htie
  constructor
  · intro hb
    have hge := Nat.mul_le_mul_right den (gridMag_strictMono.monotone hb)
    rw [gridMag_overflow] at hge
    omega
  · intro ht
    by_contra hb
    have hle := Nat.mul_le_mul_right den (gridMag_strictMono.monotone (by omega : b ≤ 0x7F7FFFFF))
    rw [gridMag_last_finite] at hle
    have hbit := htie (by omega) (by omega)
    have hlt := Nat.mul_lt_mul_of_pos_right (gridMag_strictMono (by omega : b < 0x7F7FFFFF)) hd
    rw [gridMag_last_finite] at hlt
    omega

/-- The nearest position is no farther than a magnitude taken with the other sign. -/
theorem NearestAt.near_signed {b t den : Nat} (h : NearestAt b t den) (c : Nat) (y : Int)
    (hy : y = gridMag c ∨ y = -(gridMag c : Int)) :
    (gridMag b * den - t : Int).natAbs ≤ (y * den - t).natAbs := by
  have hn := h.near c
  push_cast at hn
  rcases hy with rfl | rfl
  · exact hn
  · rw [Int.neg_mul]
    have h0 : (0 : Int) ≤ gridMag c * den := by positivity
    omega

/-- A tie with a value other than the chosen one, of either sign, makes the position even. -/
theorem NearestAt.even_signed {b t den : Nat} (h : NearestAt b t den) (hd : 0 < den) (c : Nat) (y : Int)
    (hy : y = gridMag c ∨ y = -(gridMag c : Int)) (hne : y ≠ gridMag b)
    (heq : (gridMag b * den - t : Int).natAbs = (y * den - t).natAbs) : b % 2 = 0 := by
  have hzero := h.near 0
  have he := h.even c
  simp only [show gridMag 0 = 0 from rfl, Nat.zero_mul] at hzero
  push_cast at hzero he
  rcases hy with rfl | rfl
  · exact he (by rintro rfl; exact hne rfl) heq
  · rcases Nat.eq_zero_or_pos (gridMag c) with h0 | h0
    · exact he (by rintro rfl; simp [h0] at hne) (by simpa [h0] using heq)
    · have hpos : (0 : Int) < gridMag c * den := by positivity
      rw [Int.neg_mul] at heq
      omega

end Sys2Proof.Machine
end

section
/-! SUPPORT. The rounded value: its fields, and that it is the nearest one, ties to even (R10). -/

namespace Sys2Proof.Machine

theorem fisNaN_iff (a : F32) : fisNaN a = true ↔ 0x7F800000 < fmagBits a := by simp [fisNaN]
theorem fisInf_iff (a : F32) : fisInf a = true ↔ fmagBits a = 0x7F800000 := by simp [fisInf]
theorem fisFinite_iff (a : F32) : fisFinite a = true ↔ fmagBits a < 0x7F800000 := by simp [fisFinite]

/-- A finite value is neither a NaN nor an infinity. -/
theorem not_fisNaN_of_fisFinite {a : F32} (h : fisFinite a = true) : fisNaN a = false := by
  rw [fisFinite_iff] at h
  simp [fisNaN]; omega

theorem not_fisInf_of_fisFinite {a : F32} (h : fisFinite a = true) : fisInf a = false := by
  rw [fisFinite_iff] at h
  simp [fisInf]; omega

theorem fmagBits_roundRatio (neg : Bool) (num den : Nat) :
    fmagBits (roundRatio neg num den) = min (roundBits (num * 2 ^ 149) den) 0x7F800000 := by
  rw [roundRatio_eq, fmagBits_fpack _ _ (by omega)]

@[simp] theorem fsign_roundRatio (neg : Bool) (num den : Nat) : fsign (roundRatio neg num den) = neg := by
  rw [roundRatio_eq, fsign_fpack _ _ (by omega)]

/-- A value as a signed magnitude relative to any sign. -/
theorem exists_fval_signed (neg : Bool) (c : F32) :
    ∃ y : Int, (y = fmag c ∨ y = -(fmag c : Int)) ∧ fval c = if neg then -y else y := by
  unfold fval
  cases neg <;> cases fsign c <;> simp

theorem natAbs_signed (neg : Bool) (n : Nat) : (if neg then -(n : Int) else n).natAbs = n := by
  cases neg <;> simp

/-- `roundRatio` rounds a fraction of either sign once, to nearest, ties to even (R10). -/
theorem roundsTo_roundRatio (neg : Bool) (num den : Nat) (hd : 0 < den) :
    RoundsTo (roundRatio neg num den) (if neg then -(num : Int) else num) den := by
  have h := nearestAt_roundBits (num * 2 ^ 149) den hd
  have hover := h.overflow_iff hd
  have hbits := fmagBits_roundRatio neg num den
  generalize roundBits (num * 2 ^ 149) den = b at *
  have hfin (hf : fisFinite (roundRatio neg num den) = true) : fmagBits (roundRatio neg num den) = b := by
    rw [fisFinite_iff] at hf; omega
  have hval (hf : fisFinite (roundRatio neg num den) = true) :
      fval (roundRatio neg num den) = if neg then -(gridMag b : Int) else gridMag b := by
    rw [fval, fsign_roundRatio, fmag_eq_gridMag, hfin hf]
  have hdist (y : Int) : ((if neg then -y else y) * den - (if neg then -(num : Int) else num) * 2 ^ 149).natAbs =
      (y * den - (num * 2 ^ 149 : Nat)).natAbs := by
    rw [Nat.cast_mul, Nat.cast_pow, Nat.cast_ofNat]
    cases neg
    · rfl
    · rw [if_pos rfl, if_pos rfl, ← Int.natAbs_neg, neg_sub, neg_mul, neg_mul, sub_neg_eq_add, neg_add_eq_sub]
  constructor
  case not_nan => simp [fisNaN, hbits]
  case sign =>
    intro h0
    rw [fsign_roundRatio]
    cases neg
    · simp
    · simpa [Nat.pos_iff_ne_zero] using h0
  case overflow => rw [fisInf_iff, natAbs_signed, ← hover, hbits]; omega
  case nearest =>
    intro hf c hc
    obtain ⟨y, hy, hcv⟩ := exists_fval_signed neg c
    rw [hval hf, hcv, hdist, hdist]
    exact h.near_signed (fmagBits c) y hy
  case even =>
    intro hf c hc hne heq
    obtain ⟨y, hy, hcv⟩ := exists_fval_signed neg c
    rw [hval hf, hcv, hdist, hdist] at heq
    rw [hval hf, hcv] at hne
    rw [hfin hf]
    exact h.even_signed hd (fmagBits c) y hy (by rintro rfl; exact hne rfl) heq

/-! What a rounding to nearest gives -/

theorem fmag_le_of_fisFinite {c : F32} (hc : fisFinite c = true) : fmag c ≤ (2 ^ 24 - 1) * 2 ^ 253 := by
  rw [fisFinite_iff] at hc
  rw [fmag_eq_gridMag, ← gridMag_last_finite]
  exact gridMag_strictMono.monotone (by omega)

theorem natAbs_fval (a : F32) : (fval a).natAbs = fmag a := by
  unfold fval
  split <;> simp

/-- A fraction below the overflow threshold has a finite rounding. -/
theorem RoundsTo.finite {r : F32} {num : Int} {den : Nat} (h : RoundsTo r num den)
    (hlt : num.natAbs * 2 ^ 149 < (2 ^ 25 - 1) * 2 ^ 252 * den) : fisFinite r = true := by
  have hnan := h.not_nan
  have hinf := mt h.overflow.mp (by omega)
  rw [fisInf_iff] at hinf
  rw [Bool.eq_false_iff, Ne, fisNaN_iff] at hnan
  rw [fisFinite_iff]
  omega

/-- A fraction that is a finite value is rounded to that value. -/
theorem RoundsTo.exact {r : F32} {num : Int} {den : Nat} (h : RoundsTo r num den) (hd : 0 < den) {c : F32}
    (hc : fisFinite c = true) (hv : fval c * den = num * 2 ^ 149) : fisFinite r = true ∧ fval r = fval c := by
  have habs : num.natAbs * 2 ^ 149 = fmag c * den := by
    have := congrArg Int.natAbs hv
    rw [Int.natAbs_mul, Int.natAbs_mul, natAbs_fval] at this
    exact this.symm
  have hf : fisFinite r = true := h.finite <| by
    rw [habs]
    have := fmag_le_of_fisFinite hc
    exact Nat.mul_lt_mul_of_pos_right (by omega) hd
  have hn := h.nearest hf c hc
  rw [hv, sub_self, Int.natAbs_zero, Nat.le_zero, Int.natAbs_eq_zero, ← hv, ← sub_mul] at hn
  rcases Int.mul_eq_zero.mp hn with h0 | h0
  · exact ⟨hf, by omega⟩
  · omega

/-- Every integer of 24 bits, scaled by a power of two, is a finite value. -/
theorem exists_finite (n : Int) (k : Nat) (hn : n.natAbs ≤ 2 ^ 24) (hk : k ≤ 252) :
    ∃ c : F32, fisFinite c = true ∧ fval c = n * 2 ^ k := by
  obtain ⟨b, hb, hg⟩ := exists_gridMag k n.natAbs hn
  have hlt : b < 0x7F800000 := by clear hg; omega
  refine ⟨fpack (decide (n < 0)) b, ?_, ?_⟩
  · rw [fisFinite_iff, fmagBits_fpack _ _ (by omega)]; exact hlt
  · rw [fval, fsign_fpack _ _ (by omega), fmag_eq_gridMag, fmagBits_fpack _ _ (by omega), hg]
    push_cast
    by_cases h : n < 0
    · rw [if_pos (by simpa using h), abs_of_neg h]; ring
    · rw [if_neg (by simpa using h), abs_of_nonneg (by omega)]

/-- A fraction that is an integer of 24 bits, scaled by a power of two, is rounded to itself. -/
theorem RoundsTo.exact_scaled {r : F32} {num : Int} {den : Nat} (h : RoundsTo r num den) (hd : 0 < den) (n : Int)
    (k : Nat) (hn : n.natAbs ≤ 2 ^ 24) (hk : k ≤ 252) (hv : n * 2 ^ k * den = num * 2 ^ 149) :
    fisFinite r = true ∧ fval r = n * 2 ^ k := by
  obtain ⟨c, hc, hcv⟩ := exists_finite n k hn hk
  rw [← hcv] at hv ⊢
  exact h.exact hd hc hv

/-- A common factor of the fraction does not change its rounding. -/
theorem RoundsTo.of_mul_right {r : F32} {num : Int} {den k : Nat} (h : RoundsTo r (num * k) (den * k)) (hk : 0 < k) :
    RoundsTo r num den := by
  have hdist (y : Int) : (y * (den * k : Nat) - num * k * 2 ^ 149).natAbs = (y * den - num * 2 ^ 149).natAbs * k := by
    rw [← Int.natAbs_natCast k, ← Int.natAbs_mul, Int.natAbs_natCast]
    congr 1; push_cast; ring
  constructor
  case not_nan => exact h.not_nan
  case sign =>
    intro h0
    rw [h.sign (by positivity)]
    simp [mul_neg_iff, hk]
  case overflow =>
    rw [h.overflow, Int.natAbs_mul, Int.natAbs_natCast, ← Nat.mul_assoc, Nat.mul_right_comm _ k]
    exact Nat.mul_le_mul_right_iff hk
  case nearest =>
    intro hf c hc
    have := h.nearest hf c hc
    rw [hdist, hdist] at this
    exact Nat.le_of_mul_le_mul_right this hk
  case even =>
    intro hf c hc hne heq
    exact h.even hf c hc hne (by rw [hdist, hdist, heq])

end Sys2Proof.Machine
end

section
/-! SUPPORT. The float operations on finite operands, each the rounding of its exact result (R10). -/

namespace Sys2Proof.Machine

/-- A sign and a magnitude put together. -/
theorem signed_natAbs (n : Int) : (if decide (n < 0) = true then -(n.natAbs : Int) else n.natAbs) = n := by
  simp only [decide_eq_true_eq]
  split <;> omega

theorem roundsTo_signed (n : Int) (den : Nat) (hd : 0 < den) :
    RoundsTo (roundRatio (decide (n < 0)) n.natAbs den) n den := by
  have h := roundsTo_roundRatio (decide (n < 0)) n.natAbs den hd
  rwa [signed_natAbs] at h

theorem roundRatio_zero (neg : Bool) (den : Nat) : roundRatio neg 0 den = fzero neg := by
  simp [roundRatio, nearestEven, fzero]

theorem roundsTo_fzero (neg : Bool) (den : Nat) (hd : 0 < den) : RoundsTo (fzero neg) 0 den := by
  have h := roundsTo_roundRatio neg 0 den hd
  rwa [Nat.cast_zero, neg_zero, ite_self, roundRatio_zero] at h

theorem fmag_eq_zero_iff (a : F32) : fmag a = 0 ↔ fmagBits a = 0 :=
  gridMag_strictMono.injective.eq_iff (b := 0)

theorem fisZero_iff (a : F32) : fisZero a = true ↔ fmag a = 0 := by simp [fisZero, fmag_eq_zero_iff]

theorem fval_eq_zero_iff (a : F32) : fval a = 0 ↔ fmag a = 0 := by rw [← Int.natAbs_eq_zero, natAbs_fval]

/-- Negation turns the sign bit over and nothing else. -/
@[simp] theorem fmagBits_fneg (a : F32) : fmagBits (fneg a) = fmagBits a := by
  rw [fmagBits, fneg, BitVec.toNat_xor, Nat.xor_mod_two_pow]
  exact Nat.xor_zero _

@[simp] theorem fsign_fneg (a : F32) : fsign (fneg a) = !fsign a := by
  simp [fsign, fneg, show (0x80000000#32).msb = true from rfl]

@[simp] theorem fisFinite_fneg (a : F32) : fisFinite (fneg a) = fisFinite a := by simp [fisFinite]

@[simp] theorem fval_fneg (a : F32) : fval (fneg a) = -fval a := by
  unfold fval
  rw [fsign_fneg, fmag_eq_gridMag, fmag_eq_gridMag, fmagBits_fneg]
  cases fsign a <;> simp

theorem faddAs_finite (op : FloatOp) {a b : F32} (a' b' : F32) (ha : fisFinite a = true) (hb : fisFinite b = true) :
    faddAs op a b a' b' = if fval a + fval b = 0 then fzero (fsign a && fsign b)
      else roundRatio (decide (fval a + fval b < 0)) (fval a + fval b).natAbs (2 ^ 149) := by
  simp only [faddAs, not_fisNaN_of_fisFinite ha, not_fisNaN_of_fisFinite hb, not_fisInf_of_fisFinite ha,
    not_fisInf_of_fisFinite hb, Bool.or_self, Bool.false_eq_true, if_false]

theorem fmul_finite {a b : F32} (ha : fisFinite a = true) (hb : fisFinite b = true) :
    fmul a b = roundRatio (fsign a != fsign b) (fmag a * fmag b) (2 ^ 298) := by
  simp only [fmul, not_fisNaN_of_fisFinite ha, not_fisNaN_of_fisFinite hb, not_fisInf_of_fisFinite ha,
    not_fisInf_of_fisFinite hb, Bool.or_self, Bool.false_eq_true, if_false]

theorem fdiv_finite {a b : F32} (ha : fisFinite a = true) (hb : fisFinite b = true) (h0 : fval b ≠ 0) :
    fdiv a b = roundRatio (fsign a != fsign b) (fmag a) (fmag b) := by
  have hz : fisZero b = false := by rwa [Bool.eq_false_iff, Ne, fisZero_iff, ← fval_eq_zero_iff]
  simp only [fdiv, not_fisNaN_of_fisFinite ha, not_fisNaN_of_fisFinite hb, not_fisInf_of_fisFinite ha,
    not_fisInf_of_fisFinite hb, hz, Bool.or_self, Bool.false_eq_true, if_false]

theorem roundsTo_i2f (n : Int) : RoundsTo (i2f n) n 1 := roundsTo_signed n 1 (by decide)

theorem roundsTo_faddAs (op : FloatOp) {a b : F32} (a' b' : F32) (ha : fisFinite a = true)
    (hb : fisFinite b = true) : RoundsTo (faddAs op a b a' b') (fval a + fval b) (2 ^ 149) := by
  rw [faddAs_finite op a' b' ha hb]
  split
  · next h0 =>
    rw [h0]
    exact roundsTo_fzero _ _ (Nat.two_pow_pos 149)
  · exact roundsTo_signed _ _ (Nat.two_pow_pos 149)

/-- An exact zero sum is negative only of two negative zeros. -/
theorem fsign_faddAs_of_zero (op : FloatOp) {a b : F32} (a' b' : F32) (ha : fisFinite a = true)
    (hb : fisFinite b = true) (h0 : fval a + fval b = 0) : fsign (faddAs op a b a' b') = (fsign a && fsign b) := by
  rw [faddAs_finite op a' b' ha hb, if_pos h0, fzero, fsign_fpack _ _ (by decide)]

theorem roundsTo_fmul {a b : F32} (ha : fisFinite a = true) (hb : fisFinite b = true) :
    RoundsTo (fmul a b) (fval a * fval b) (2 ^ 298) := by
  rw [fmul_finite ha hb]
  have hval : fval a * fval b =
      if (fsign a != fsign b) then -((fmag a * fmag b : Nat) : Int) else (fmag a * fmag b : Nat) := by
    unfold fval
    cases fsign a <;> cases fsign b <;> simp
  rw [hval]
  exact roundsTo_roundRatio _ _ _ (by positivity)

theorem roundsTo_fdiv {a b : F32} (ha : fisFinite a = true) (hb : fisFinite b = true) (h0 : fval b ≠ 0) :
    RoundsTo (fdiv a b) (fval a * (fval b).sign) (fmag b) := by
  rw [fdiv_finite ha hb h0]
  have hpos : 0 < fmag b := Nat.pos_of_ne_zero (mt (fval_eq_zero_iff b).mpr h0)
  have hsign : (fval b).sign = if fsign b then -1 else 1 := by
    have hone : (fmag b : Int).sign = 1 := Int.sign_natCast_of_ne_zero hpos.ne'
    unfold fval
    split
    · rw [Int.sign_neg, hone]
    · exact hone
  have hval : fval a * (fval b).sign = if (fsign a != fsign b) then -(fmag a : Int) else fmag a := by
    rw [hsign, fval]
    cases fsign a <;> cases fsign b <;> simp
  rw [hval]
  exact roundsTo_roundRatio _ _ _ hpos

end Sys2Proof.Machine
end

section
/-! SUPPORT. Fixed-point values: integers of 24 bits over a power of two are exact, and dividing a rounded value by a
power of two is no second rounding (R10, R14, R141, R150). -/

namespace Sys2Proof.Machine

/-- `i2f` is exact on 24 bits (R10). -/
theorem i2f_exact (n : Int) (hn : n.natAbs ≤ 2 ^ 24) : fisFinite (i2f n) = true ∧ fval (i2f n) = n * 2 ^ 149 :=
  (roundsTo_i2f n).exact_scaled (by decide) n 149 hn (by decide) (by rw [Nat.cast_one, mul_one])

theorem fmag_i2f (n : Int) (hn : n.natAbs ≤ 2 ^ 24) : fmag (i2f n) = n.natAbs * 2 ^ 149 := by
  rw [← natAbs_fval, (i2f_exact n hn).2, Int.natAbs_mul]
  rfl

/-- A power of two as a divisor. -/
theorem i2f_two_pow (j : Nat) (hj : j ≤ 24) :
    fisFinite (i2f (2 ^ j)) = true ∧ fsign (i2f (2 ^ j)) = false ∧ fmag (i2f (2 ^ j)) = 2 ^ j * 2 ^ 149 ∧
      fval (i2f (2 ^ j)) = 2 ^ j * 2 ^ 149 := by
  have hle : 2 ^ j ≤ 2 ^ 24 := Nat.pow_le_pow_right (by decide) hj
  have habs : ((2 : Int) ^ j).natAbs = 2 ^ j := by simp [Int.natAbs_pow]
  have hn : ((2 : Int) ^ j).natAbs ≤ 2 ^ 24 := by rwa [habs]
  refine ⟨(i2f_exact _ hn).1, ?_, by rw [fmag_i2f _ hn, habs], (i2f_exact _ hn).2⟩
  rw [i2f, fsign_roundRatio, decide_eq_false_iff_not, Int.not_lt]
  positivity

/-- An integer of 24 bits over a power of two is exact: its fixed-point value. -/
theorem fdiv_i2f_two_pow (n : Int) (j : Nat) (hn : n.natAbs ≤ 2 ^ 24) (hj : j ≤ 24) :
    fisFinite (fdiv (i2f n) (i2f (2 ^ j))) = true ∧ fval (fdiv (i2f n) (i2f (2 ^ j))) = n * 2 ^ (149 - j) := by
  obtain ⟨hfin, hval⟩ := i2f_exact n hn
  obtain ⟨hfin2, hsign2, hmag2, hval2⟩ := i2f_two_pow j hj
  have hpos : (0 : Int) < fval (i2f (2 ^ j)) := by rw [hval2]; positivity
  have h := roundsTo_fdiv hfin hfin2 hpos.ne'
  rw [Int.sign_eq_one_of_pos hpos, mul_one, hmag2, hval] at h
  refine h.exact_scaled (by positivity) n (149 - j) hn (by omega) ?_
  have hpow : (2 : Int) ^ (149 - j) * 2 ^ j = 2 ^ 149 := by rw [← pow_add, Nat.sub_add_cancel (by omega)]
  rw [Nat.cast_mul, Nat.cast_pow, Nat.cast_pow, Nat.cast_ofNat, ← mul_assoc, mul_assoc n, hpow]

/-- The power of two times the quotient is the integer again. -/
theorem fdiv_i2f_two_pow_mul (n : Int) (j : Nat) (hn : n.natAbs ≤ 2 ^ 24) (hj : j ≤ 24) :
    fisFinite (fdiv (i2f n) (i2f (2 ^ j))) = true ∧ 2 ^ j * fval (fdiv (i2f n) (i2f (2 ^ j))) = n * 2 ^ 149 := by
  obtain ⟨hfin, hval⟩ := fdiv_i2f_two_pow n j hn hj
  refine ⟨hfin, ?_⟩
  rw [hval, mul_left_comm, ← pow_add, Nat.add_sub_cancel' (by omega)]

/-! Rounding and powers of two -/

theorem nearestEven_mul_right (n d k : Nat) (hk : 0 < k) : nearestEven (n * k) (d * k) = nearestEven n d := by
  simp only [nearestEven, Nat.mul_div_mul_right _ _ hk, Nat.mul_mod_mul_right, ← Nat.mul_assoc,
    Nat.mul_lt_mul_right hk]

/-- A common factor of the fraction does not change its rounding. -/
theorem roundRatio_mul_right (neg : Bool) (num den k : Nat) (hk : 0 < k) :
    roundRatio neg (num * k) (den * k) = roundRatio neg num den := by
  simp only [roundRatio, Nat.mul_right_comm num k, Nat.mul_div_mul_right _ _ hk, Nat.mul_right_comm den k,
    nearestEven_mul_right _ _ _ hk]

theorem log2_div_two_pow (x j : Nat) : Nat.log2 (x / 2 ^ j) = Nat.log2 x - j := by
  induction j with
  | zero => simp
  | succ j ih =>
    rw [Nat.pow_succ, ← Nat.div_div_eq_div_mul, Nat.log2_eq_log_two, Nat.log_div_base, ← Nat.log2_eq_log_two, ih,
      Nat.sub_sub]

/-- A fraction of at least 2^23 units keeps all 24 bits. -/
theorem le_roundBits (t den : Nat) (h : 2 ^ 23 ≤ t / den) : 2 ^ 23 ≤ roundBits t den := by
  obtain ⟨-, hkept⟩ := kept_mantissa (t / den)
  simp only [roundBits]
  generalize Nat.log2 (t / den) - 23 = e at *
  have hle : 2 ^ 23 ≤ t / (den * 2 ^ e) := by
    rw [← Nat.div_div_eq_div_mul]
    rcases hkept with rfl | hkept
    · simpa using h
    · exact hkept
  rcases nearestEven_cases t (den * 2 ^ e) with ⟨hq, -⟩ | ⟨hq, -⟩ <;> omega

/-- Dividing by a power of two moves the rounding by the exponent field alone while 24 bits are left. -/
theorem roundBits_den_mul_two_pow (t den j : Nat) (h : 23 + j ≤ Nat.log2 (t / den)) :
    roundBits t den = roundBits t (den * 2 ^ j) + j * 2 ^ 23 := by
  have hexp : Nat.log2 (t / den) - 23 = j + (Nat.log2 (t / (den * 2 ^ j)) - 23) := by
    rw [← Nat.div_div_eq_div_mul, log2_div_two_pow]
    omega
  simp only [roundBits, hexp, Nat.pow_add, Nat.mul_assoc, Nat.add_mul]
  omega

theorem fmag_roundRatio {neg : Bool} {num den : Nat} (hf : fisFinite (roundRatio neg num den) = true) :
    fmag (roundRatio neg num den) = gridMag (roundBits (num * 2 ^ 149) den) := by
  rw [fisFinite_iff, fmagBits_roundRatio] at hf
  rw [fmag_eq_gridMag, fmagBits_roundRatio, Nat.min_eq_left (by omega)]

/-- A finite rounding of a divided fraction is the divided rounding, while 24 bits are left. -/
theorem fmag_roundRatio_den_mul_two_pow {neg : Bool} {num den : Nat} (j : Nat)
    (hf : fisFinite (roundRatio neg num den) = true) (hnum : num = 0 ∨ 2 ^ (23 + j) ≤ num * 2 ^ 149 / den) :
    fisFinite (roundRatio neg num (den * 2 ^ j)) = true ∧
      fmag (roundRatio neg num den) = fmag (roundRatio neg num (den * 2 ^ j)) * 2 ^ j := by
  rcases hnum with rfl | hnum
  · rw [roundRatio_zero] at hf
    rw [roundRatio_zero, roundRatio_zero]
    have h0 : fmag (fzero neg) = 0 := by rw [fmag_eq_zero_iff, fzero, fmagBits_fpack _ _ (by decide)]
    exact ⟨hf, by rw [h0, Nat.zero_mul]⟩
  · have hx : num * 2 ^ 149 / den ≠ 0 := (Nat.lt_of_lt_of_le (Nat.two_pow_pos _) hnum).ne'
    have hbits := roundBits_den_mul_two_pow (num * 2 ^ 149) den j ((Nat.le_log2 hx).mpr hnum)
    have hge := le_roundBits (num * 2 ^ 149) (den * 2 ^ j) <| by
      rwa [← Nat.div_div_eq_div_mul, Nat.le_div_iff_mul_le (Nat.two_pow_pos j), ← Nat.pow_add]
    have hfq : fisFinite (roundRatio neg num (den * 2 ^ j)) = true := by
      rw [fisFinite_iff, fmagBits_roundRatio, min_lt_iff] at hf ⊢
      exact hf.imp_left (Nat.lt_of_le_of_lt (Nat.le.intro hbits.symm))
    exact ⟨hfq, by rw [fmag_roundRatio hf, fmag_roundRatio hfq, hbits, gridMag_add_exponent _ _ hge]⟩

/-- A finite rounding over a power of two is one rounding of the divided fraction, while 24 bits are left. -/
theorem fdiv_roundRatio_two_pow (neg : Bool) (num den j : Nat) (hj : j ≤ 24)
    (hf : fisFinite (roundRatio neg num den) = true) (hnum : num = 0 ∨ 2 ^ (23 + j) ≤ num * 2 ^ 149 / den) :
    fdiv (roundRatio neg num den) (i2f (2 ^ j)) = roundRatio neg num (den * 2 ^ j) := by
  obtain ⟨hfin2, hsign2, hmag2, hval2⟩ := i2f_two_pow j hj
  obtain ⟨hfq, hmag⟩ := fmag_roundRatio_den_mul_two_pow j hf hnum
  have hne : fval (i2f (2 ^ j)) ≠ 0 := by rw [hval2]; positivity
  have hexact := roundRatio_exact _ (fmag (roundRatio neg num den)) (2 ^ j * 2 ^ 149) hfq (by positivity)
    (by rw [hmag, Nat.mul_assoc])
  rw [fsign_roundRatio] at hexact
  rw [fdiv_finite hf hfin2 hne, hsign2, hmag2, fsign_roundRatio, Bool.bne_false]
  exact hexact

/-! Texture coordinates and wire elements -/

theorem natAbs_toInt_le (h : Half) : h.toInt.natAbs ≤ 2 ^ 15 := by
  have hlo := h.le_toInt
  have hhi := h.toInt_lt
  omega

/-- A 16-bit number over 65536: a scale register's value, or a wire element's fraction half. -/
theorem fraction_half (f : Half) :
    fisFinite (fdiv (i2f f.toNat) (i2f 65536)) = true ∧ fsign (fdiv (i2f f.toNat) (i2f 65536)) = false ∧
      fval (fdiv (i2f f.toNat) (i2f 65536)) = f.toNat * 2 ^ 133 := by
  have hn : (f.toNat : Int).natAbs ≤ 2 ^ 24 := by have := f.isLt; omega
  have hpow : ((2 : Int) ^ 16) = 65536 := by norm_num
  obtain ⟨hfin, hval⟩ := fdiv_i2f_two_pow f.toNat 16 hn (by decide)
  obtain ⟨hfin2, hsign2, hmag2, hval2⟩ := i2f_two_pow 16 (by decide)
  rw [hpow] at hfin hval hfin2 hsign2 hval2
  refine ⟨hfin, ?_, hval⟩
  rw [fdiv_finite (i2f_exact _ hn).1 hfin2 (by rw [hval2]; positivity), fsign_roundRatio, hsign2, Bool.bne_false, i2f,
    fsign_roundRatio, decide_eq_false_iff_not, Int.not_lt]
  exact Int.natCast_nonneg _

/-- The product of a raw coordinate and its scale is one rounding of `raw·scale/65536` (R150). -/
theorem fmul_scale (raw scale : Half) :
    fmul (i2f raw.toInt) (fdiv (i2f scale.toNat) (i2f 65536)) =
      roundRatio (decide (raw.toInt < 0)) (raw.toInt.natAbs * scale.toNat) 65536 := by
  have hn : raw.toInt.natAbs ≤ 2 ^ 24 := (natAbs_toInt_le raw).trans (by decide)
  obtain ⟨hfin, hsign, hval⟩ := fraction_half scale
  have hmag : fmag (fdiv (i2f scale.toNat) (i2f 65536)) = scale.toNat * 2 ^ 133 := by
    rw [← natAbs_fval, hval, Int.natAbs_mul]
    rfl
  have hnum : raw.toInt.natAbs * 2 ^ 149 * (scale.toNat * 2 ^ 133) =
      raw.toInt.natAbs * scale.toNat * 2 ^ (149 + 133) := by
    rw [Nat.pow_add 2 149 133, Nat.mul_mul_mul_comm]
  have hden : 2 ^ 298 = 65536 * 2 ^ (149 + 133) := by
    rw [show 65536 = 2 ^ 16 from rfl, ← Nat.pow_add]
  rw [fmul_finite (i2f_exact _ hn).1 hfin, hsign, Bool.bne_false, fmag_i2f _ hn, hmag, hnum, hden,
    roundRatio_mul_right _ _ _ _ (Nat.two_pow_pos _), i2f, fsign_roundRatio]

theorem raw_mul_scale_lt (raw scale : Half) : raw.toInt.natAbs * scale.toNat < 2 ^ 15 * 2 ^ 16 :=
  Nat.mul_lt_mul_of_le_of_lt (natAbs_toInt_le raw) scale.isLt (by decide)

/-- A fraction of fewer than 32 bits has a finite rounding. -/
theorem fisFinite_roundRatio (neg : Bool) (num den : Nat) (hd : 0 < den) (hnum : num < 2 ^ 32) :
    fisFinite (roundRatio neg num den) = true := by
  refine (roundsTo_roundRatio neg num den hd).finite ?_
  rw [natAbs_signed]
  omega

/-- A texture coordinate is one rounding of `raw·scale/(65536·32)`: the division by 32 is exact (R150). -/
theorem texCoord_eq (raw scale : Half) :
    texCoord raw.toInt scale =
      roundRatio (decide (raw.toInt < 0)) (raw.toInt.natAbs * scale.toNat) (65536 * 32) := by
  have hlt := raw_mul_scale_lt raw scale
  have hfin := fisFinite_roundRatio (decide (raw.toInt < 0)) (raw.toInt.natAbs * scale.toNat) 65536 (by decide)
    (by omega)
  rw [texCoord, fmul_scale]
  refine fdiv_roundRatio_two_pow _ _ _ 5 (by decide) hfin ?_
  generalize raw.toInt.natAbs * scale.toNat = n
  omega

theorem roundsTo_texCoord (raw scale : Half) :
    RoundsTo (texCoord raw.toInt scale) (raw.toInt * scale.toNat) (65536 * 32) := by
  have h := roundsTo_roundRatio (decide (raw.toInt < 0)) (raw.toInt.natAbs * scale.toNat) (65536 * 32) (by decide)
  have hnum : (if decide (raw.toInt < 0) = true then -((raw.toInt.natAbs * scale.toNat : Nat) : Int)
      else (raw.toInt.natAbs * scale.toNat : Nat)) = raw.toInt * scale.toNat := by
    conv_rhs => rw [← signed_natAbs raw.toInt]
    split <;> simp
  rwa [hnum, ← texCoord_eq] at h

/-- A wire element rounds the exact sum of its halves (R141). -/
theorem roundsTo_wireElement (ip fp : Half) :
    RoundsTo (wireElement ip fp) (ip.toInt * 65536 + fp.toNat) 65536 := by
  obtain ⟨hfin, hval⟩ := i2f_exact ip.toInt ((natAbs_toInt_le ip).trans (by decide))
  obtain ⟨hfinF, -, hvalF⟩ := fraction_half fp
  have h := roundsTo_faddAs .add (i2f ip.toInt) (fdiv (i2f fp.toNat) (i2f 65536)) hfin hfinF
  have hsum : ip.toInt * 2 ^ 149 + (fp.toNat : Int) * 2 ^ 133 =
      (ip.toInt * 65536 + fp.toNat) * ((2 ^ 133 : Nat) : Int) := by
    push_cast; ring
  rw [hval, hvalF, hsum] at h
  exact RoundsTo.of_mul_right (den := 65536) (k := 2 ^ 133) h (Nat.two_pow_pos 133)

end Sys2Proof.Machine
end

section
/-! SUPPORT. The degenerate-perspective guard in terms of magnitudes (R262), and what it drops (R265). -/

namespace Sys2Proof.Machine

theorem fmagBits_fabs (a : F32) : fmagBits (fabs a) = fmagBits a := by
  rw [fmagBits, fabs, BitVec.toNat_and, show (0x7FFFFFFF#32).toNat = 2 ^ 31 - 1 from rfl,
    Nat.and_two_pow_sub_one_eq_mod, Nat.mod_mod]
  rfl

theorem fsign_fabs (a : F32) : fsign (fabs a) = false := by
  simp [fsign, fabs, show (0x7FFFFFFF#32).msb = false from rfl]

theorem fval_of_nonneg {a : F32} (h : fsign a = false) : fval a = fmag a := by
  rw [fval, h]
  rfl

/-- The order of two values that are not negative is the order of their positions; a NaN is below nothing. -/
theorem flt_of_nonneg {a b : F32} (ha : fsign a = false) (hb : fsign b = false) (hfin : fisFinite b = true) :
    flt a b = true ↔ fmagBits a < fmagBits b := by
  rw [fisFinite_iff] at hfin
  simp [flt, fkey, ha, hb, fisNaN]
  omega

/-- `W_EPSILON` in its domain is a positive finite value (R7). -/
theorem wEpsilon_of_wf {p : Params} (h : p.wf = true) :
    fsign p.wEpsilon = false ∧ fisFinite p.wEpsilon = true ∧ 0 < fmag p.wEpsilon := by
  simp only [Params.wf, Bool.and_eq_true, decide_eq_true_eq] at h
  obtain ⟨⟨-, hpos⟩, hlt⟩ := h
  have hbits : fmagBits p.wEpsilon = p.wEpsilon.toNat := Nat.mod_eq_of_lt (by omega)
  refine ⟨?_, by rw [fisFinite_iff, hbits]; exact hlt, ?_⟩
  · simp [fsign, BitVec.msb_eq_decide]; omega
  · exact Nat.pos_of_ne_zero (by rw [Ne, fmag_eq_zero_iff, hbits]; omega)

/-- The guard holds of exactly the finite values whose magnitude is below a positive finite `eps` (R262). -/
theorem flt_fabs_iff {eps : F32} (hs : fsign eps = false) (hf : fisFinite eps = true) (w : F32) :
    flt (fabs w) eps = true ↔ fisFinite w = true ∧ (fmag w : Int) < fval eps := by
  rw [flt_of_nonneg (fsign_fabs w) hs hf, fmagBits_fabs, fval_of_nonneg hs, Int.ofNat_lt, fmag_eq_gridMag,
    fmag_eq_gridMag, gridMag_strictMono.lt_iff_lt, fisFinite_iff]
  rw [fisFinite_iff] at hf
  omega

/-- A triangle that names a skipped vertex is dropped (R262, R265). -/
theorem State.emitTri_of_skipped (s : State) (f0 f1 f2 : BitVec 8) (p : VtxEntry)
    (hp : s.vc[cacheIndex f0]? = some p ∨ s.vc[cacheIndex f1]? = some p ∨ s.vc[cacheIndex f2]? = some p)
    (hskip : skipped s.params.wEpsilon p = true) : s.emitTri f0 f1 f2 = s := by
  rcases s.emitTri_cases f0 f1 f2 with h | ⟨a, b, c, ha, hb, hc, hsa, hsb, hsc, -⟩
  · exact h
  · rw [ha, hb, hc] at hp
    simp only [Option.some.injEq] at hp
    rcases hp with rfl | rfl | rfl <;> simp_all

theorem exec_tri1 (i0 i1 i2 : BitVec 8) (s : State) : exec (.tri1 i0 i1 i2) s = .next (s.emitTri i0 i1 i2) := rfl

end Sys2Proof.Machine
end

section
/-! The statements of the family of spec/00_scope.md, settled. -/

namespace Sys2Proof.Machine

/-- Settles O29: `roundRatio` chooses the nearest position of the grid, and every operation on finite operands is
`roundRatio` of its exact result. -/
theorem roundingIsToNearestTiesToEven : Obligations.RoundingIsToNearestTiesToEven := by
  refine ⟨fun neg num den hd => ⟨fsign_roundRatio neg num den, roundsTo_roundRatio neg num den hd⟩, roundsTo_i2f,
    fun a b ha hb => ?_⟩
  have hb' : fisFinite (fneg b) = true := by rwa [fisFinite_fneg]
  have hsub := roundsTo_faddAs .sub a b ha hb'
  have hsubZero := fsign_faddAs_of_zero .sub a b ha hb'
  rw [fval_fneg, ← sub_eq_add_neg] at hsub hsubZero
  rw [fsign_fneg] at hsubZero
  exact ⟨roundsTo_faddAs .add a b ha hb, fsign_faddAs_of_zero .add a b ha hb, hsub, hsubZero,
    roundsTo_fmul ha hb, by rw [fmul_finite ha hb, fsign_roundRatio],
    fun h0 => ⟨roundsTo_fdiv ha hb h0, by rw [fdiv_finite ha hb h0, fsign_roundRatio]⟩⟩

/-- Settles O30: each input is an integer of 24 bits over a power of two, and the division of a texture coordinate by
32 moves only the exponent. -/
theorem fixedPointInputsConvertExactly : Obligations.FixedPointInputsConvertExactly := by
  refine ⟨i2f_exact, fun f => ?_, fun h => ?_, fun scale => ?_, fun raw scale => ?_, fun raw => ?_⟩
  · exact fdiv_i2f_two_pow_mul f.toNat 2 (by have := f.isLt; omega) (by decide)
  · have hn : h.toInt.natAbs ≤ 2 ^ 24 := (natAbs_toInt_le h).trans (by decide)
    obtain ⟨hfin5, hval5⟩ := fdiv_i2f_two_pow_mul h.toInt 5 hn (by decide)
    obtain ⟨hfin10, hval10⟩ := fdiv_i2f_two_pow_mul h.toInt 10 hn (by decide)
    exact ⟨hfin5, hval5, hfin10, hval10⟩
  · exact fdiv_i2f_two_pow_mul scale.toNat 16 (by have := scale.isLt; omega) (by decide)
  · refine ⟨?_, roundsTo_texCoord raw scale⟩
    rw [texCoord_eq]
    exact fisFinite_roundRatio _ _ _ (by decide) ((raw_mul_scale_lt raw scale).trans (by decide))
  · obtain ⟨-, hval⟩ := (roundsTo_texCoord raw 0x8000#16).exact_scaled (by decide) raw.toInt 143
      ((natAbs_toInt_le raw).trans (by decide)) (by decide) (by simp; ring)
    rw [hval]
    ring

/-- Settles O31: both halves are exact, so the sum is the one rounding. -/
theorem wireElementIsNearestToItsFixedPointValue : Obligations.WireElementIsNearestToItsFixedPointValue := by
  intro ip fp
  have h := roundsTo_wireElement ip fp
  refine ⟨h.finite ?_, h⟩
  have hip := natAbs_toInt_le ip
  have hfp := fp.isLt
  omega

/-- Settles O59: the order of values is the order of their positions on the grid, and a zero is below every positive
value. -/
theorem zeroWVertexIsNeverDrawn : Obligations.ZeroWVertexIsNeverDrawn := by
  intro s hwf
  obtain ⟨hsign, hfin, hpos⟩ := wEpsilon_of_wf hwf
  refine ⟨flt_fabs_iff hsign hfin, fun i0 i1 i2 p hp hw => ?_⟩
  have hzero : fisFinite p.w = true ∧ fmag p.w = 0 := by
    rcases hw with hw | hw <;> rw [hw] <;> decide
  have hskip : skipped s.params.wEpsilon p = true := by
    rw [skipped, flt_fabs_iff hsign hfin, fval_of_nonneg hsign, hzero.2]
    exact ⟨hzero.1, Int.ofNat_lt.mpr hpos⟩
  rw [exec_tri1, s.emitTri_of_skipped i0 i1 i2 p hp hskip]

end Sys2Proof.Machine
end

section
/-! SUPPORT. What a command may write, said once for every command (R25, R35, R36, R37, R45, R50, R286). -/

namespace Sys2Proof.Machine

/-! Shared operations with the whole next state, and their frames -/

/-- `Release(t)` with the whole next state (R186). -/
theorem State.release_eq (s : State) (t : Fin 8) :
    s.release t =
      { s with
        tile := s.tile.set t { s.tileAt t with tex := none }
        legacyTex := if t = 0 ∧ (s.tileAt t).tex ≠ none then none else s.legacyTex
        out := s.out ++ (s.tileAt t).tex.toList.map Event.releaseTexture } := by
  rcases s.release_cases t with ⟨h, he⟩ | ⟨h, hh, he⟩ <;> rw [he]
  · have hd : ({ s.tileAt t with tex := none } : Tile) = s.tile[t] := by rw [← h]; rfl
    simp [h, hd]
  · simp only [hh, ne_eq, reduceCtorEq, not_false_eq_true, and_true]
    rfl

/-- `TILE[t].tex <- create_or_replace_texture(..)` with the whole next state (R51, R185). -/
theorem State.createTexture_eq (s : State) (t : Fin 8) (buf : List Byte) :
    s.createTexture t buf =
      { s with
        tile := s.tile.set t { s.tileAt t with tex := some s.nextHandle }
        legacyTex := if t = 0 then some s.nextHandle else s.legacyTex
        out := s.out ++ [.createTexture buf (s.tileAt t).width (s.tileAt t).height s.nextHandle]
        answers := s.answers.tail
        draws := s.draws + 1 } := rfl

theorem State.sameButTextures.trans {s r t : State} (h : s.sameButTextures r) (h' : r.sameButTextures t) :
    s.sameButTextures t := by
  unfold State.sameButTextures at *
  rw [h', h]

theorem State.emit_frame (s : State) (e : Event) : s.sameButTextures (s.emit e) := rfl

theorem State.emitTri_frame (s : State) (f0 f1 f2 : BitVec 8) : s.sameButTextures (s.emitTri f0 f1 f2) := by
  rcases s.emitTri_cases f0 f1 f2 with he | ⟨_, _, _, -, -, -, -, -, -, he⟩ <;> rw [he]
  · rfl
  · exact (s.ensureRealized_frame 0).trans (State.emit_frame _ _)

theorem State.drawTexrect_frame (s : State) (d : Tile) (h : Handle) (lrx lry ulx uly : BitVec 12) :
    s.sameButTextures (s.drawTexrect d h lrx lry ulx uly) := rfl

theorem State.takeContinuation_frame (s : State) :
    s.takeContinuation =
      { s with
        stack := (s.advance 2).stack, cont0 := s.takeContinuation.cont0, cont1 := s.takeContinuation.cont1 } := by
  cases hs : s.stack with
  | nil => simp only [State.takeContinuation, State.advance, hs]; rw [← hs]
  | cons f fs => rw [s.takeContinuation_cons f fs hs, s.advance_cons 2 f fs hs]

@[simp] theorem State.takeContinuation_out (s : State) : s.takeContinuation.out = s.out := by
  rw [s.takeContinuation_frame]

@[simp] theorem State.takeContinuation_tile (s : State) : s.takeContinuation.tile = s.tile := by
  rw [s.takeContinuation_frame]

@[simp] theorem State.takeContinuation_legacyTex (s : State) : s.takeContinuation.legacyTex = s.legacyTex := by
  rw [s.takeContinuation_frame]

/-- A textured rectangle takes its continuation, and then writes what a realization writes (R236). -/
theorem State.texrect_frame (s : State) (lrx lry : BitVec 12) (t : Fin 8) (ulx uly : BitVec 12) :
    ∃ cont0 cont1, ({ s with stack := (s.advance 2).stack, cont0 := cont0, cont1 := cont1 } : State).sameButTextures
      (s.texrect lrx lry t ulx uly) := by
  refine ⟨s.takeContinuation.cont0, s.takeContinuation.cont1, ?_⟩
  have hr := s.takeContinuation.ensureRealized_frame t
  rw [← s.takeContinuation_frame]
  rcases s.texrect_cases lrx lry t ulx uly with ⟨he, -⟩ | ⟨_, -, -, -, he⟩ <;> rw [he]
  · exact hr
  · exact hr.trans (State.drawTexrect_frame _ _ _ _ _ _ _)

theorem State.setBounds_frame (s : State) (t : Fin 8) (uls ult lrs lrt : BitVec 12) :
    s.sameButTextures (s.setBounds t uls ult lrs lrt) := rfl

theorem State.bindSource_frame (s : State) (t : Fin 8) : s.sameButTextures (s.bindSource t) := rfl

theorem State.loadVertices_frame (s : State) (base : Int) (addr : Addr) (is : List Nat) :
    ∃ vc, is.foldl (fun s i => s.loadVertex base addr i) s = { s with vc := vc } := by
  induction is generalizing s with
  | nil => exact ⟨s.vc, rfl⟩
  | cons i is ih =>
    obtain ⟨vc, hvc⟩ := ih (s.loadVertex base addr i)
    refine ⟨vc, ?_⟩
    rw [List.foldl_cons, hvc]
    rcases s.loadVertex_cases base addr i with ⟨he, -⟩ | ⟨_, -, -, -, he⟩ <;> rw [he]

/-! Commands -/

/-- `t` is `s` but for what the command may write. -/
def commandFrame (s t : State) : Instr → Prop
  | .noop | .spnoop | .loadsync | .pipesync | .tilesync | .fullsync | .rdphalf1 _ | .rdphalf2 _ => t = s
  | .vtx _ _ _ => t = { s with vc := t.vc }
  | .texture _ _ => t = { s with tscaleS := t.tscaleS, tscaleT := t.tscaleT }
  | .mtx _ _ _ _ | .popmtx => t = { s with mv := t.mv, pj := t.pj, mvp := t.mvp }
  | .dl _ _ | .endList => t = { s with stack := t.stack }
  | .settile _ _ _ _ _ _ _ _ _ _ _ _ | .loadtile _ _ _ _ _ | .loadblock _ _ _ _ _ => t = { s with tile := t.tile }
  | .settilesize _ _ _ _ _ | .tri1 _ _ _ | .tri2 _ _ _ _ _ _ | .quad _ _ _ _ _ _ => s.sameButTextures t
  | .texrect _ _ _ _ _ | .texrectm _ _ _ _ _ =>
    ({ s with stack := (s.advance 2).stack, cont0 := t.cont0, cont1 := t.cont1 } : State).sameButTextures t
  | .fillrect _ _ _ _ => t = { s with out := t.out }
  | .loadtlut _ _ => t = { s with tlut := t.tlut }
  | .setfillcolor _ => t = { s with fill := t.fill }
  | .setprimcolor _ _ _ _ => t = { s with prim := t.prim }
  | .setenvcolor _ _ _ _ => t = { s with env := t.env }
  | .settimg _ _ _ _ => t = { s with timg := t.timg }

/-- SETTILESIZE is the bounds, and then a realization or a binding (R180). -/
theorem execSettilesize_cases (uls ult : BitVec 12) (tile : BitVec 3) (lrs lrt : BitVec 12) (s : State) :
    ((s.tileAt tile.toFin).src ≠ none ∧ execSettilesize uls ult tile lrs lrt s =
      .next ((s.setBounds tile.toFin uls ult lrs lrt).realize tile.toFin)) ∨
    ((s.tileAt tile.toFin).src = none ∧ execSettilesize uls ult tile lrs lrt s =
      .next ((s.setBounds tile.toFin uls ult lrs lrt).bindSource tile.toFin)) := by
  unfold execSettilesize
  simp only [State.setBounds, State.tileAt_setTile_same]
  cases (s.tileAt tile.toFin).src with
  | none => exact .inr ⟨rfl, rfl⟩
  | some loc => exact .inl ⟨by simp, rfl⟩

theorem execMtx_cases (j l p : BitVec 1) (addr : Addr) (s : State) :
    (s.resolve addr = none ∧ execMtx j l p addr s = .next s) ∨
    ∃ loc, s.resolve addr = some loc ∧
      execMtx j l p addr s = .next (s.loadMatrix j l (fromWire s.mem loc)).recompose := by
  unfold execMtx
  cases s.resolve addr with
  | none => exact .inl ⟨rfl, rfl⟩
  | some loc => exact .inr ⟨loc, rfl, rfl⟩

theorem State.callList_frame (s : State) (j : BitVec 1) (base : Nat) :
    s.callList j base = { s with stack := (s.callList j base).stack } := by
  unfold State.callList
  split <;> rfl

theorem State.skipList_frame (s : State) (j : BitVec 1) :
    s.skipList j = { s with stack := (s.skipList j).stack } := by
  unfold State.skipList
  split <;> rfl

theorem State.loadMatrix_frame (s : State) (j l : BitVec 1) (m : Mat) :
    s.loadMatrix j l m = { s with mv := (s.loadMatrix j l m).mv, pj := (s.loadMatrix j l m).pj } := by
  unfold State.loadMatrix
  split <;> rfl

/-- Every command writes only what its frame lists. -/
theorem exec_frame {i : Instr} {s t : State} (h : exec i s = .next t) : commandFrame s t i := by
  cases i
  case vtx n e addr =>
    obtain ⟨vc, hvc⟩ := s.loadVertices_frame (vtxBase n e) addr (List.range n.toNat)
    obtain rfl : _ = t := Host.Outcome.next.inj h
    show _ = _
    rw [hvc]
  case mtx j l p addr =>
    rcases execMtx_cases j l p addr s with ⟨-, he⟩ | ⟨loc, -, he⟩ <;>
      obtain rfl := Host.Outcome.next.inj (he.symm.trans h)
    · rfl
    · show _ = _
      rw [State.loadMatrix_frame]
      rfl
  case dl j addr =>
    rcases execDl_cases j addr s with ⟨base, -, -, he⟩ | ⟨-, he⟩ <;>
      obtain rfl := Host.Outcome.next.inj (he.symm.trans h)
    · exact s.callList_frame j base
    · exact s.skipList_frame j
  case loadtlut tile cnt =>
    obtain rfl : _ = t := Host.Outcome.next.inj h
    show _ = _
    split <;> rfl
  case fillrect lrx lry ulx uly =>
    obtain rfl : _ = t := Host.Outcome.next.inj h
    show _ = _
    split <;> rfl
  case settilesize uls ult tile lrs lrt =>
    have hb := s.setBounds_frame tile.toFin uls ult lrs lrt
    rcases execSettilesize_cases uls ult tile lrs lrt s with ⟨-, he⟩ | ⟨-, he⟩ <;>
      obtain rfl := Host.Outcome.next.inj (he.symm.trans h)
    · exact hb.trans (State.realize_frame _ _)
    · exact hb.trans (State.bindSource_frame _ _)
  case tri1 i0 i1 i2 =>
    obtain rfl : _ = t := Host.Outcome.next.inj h
    exact s.emitTri_frame i0 i1 i2
  case tri2 | quad =>
    obtain rfl : _ = t := Host.Outcome.next.inj h
    exact (s.emitTri_frame _ _ _).trans (State.emitTri_frame _ _ _ _)
  case texrect | texrectm =>
    obtain rfl : _ = t := Host.Outcome.next.inj h
    obtain ⟨cont0, cont1, hcont⟩ := s.texrect_frame _ _ _ _ _
    show _ = _
    rw [hcont]
  all_goals
    obtain rfl : _ = t := Host.Outcome.next.inj h
    rfl

end Sys2Proof.Machine
end

section
/-! SUPPORT. What every step keeps follows from what the cursor's move, every command and the start of a pass keep (R121,
R122, R128, R293). -/

namespace Sys2Proof.Machine

/-- What the cursor's move, every command and the start of a pass keep, every step keeps. -/
theorem step_keeps {P : State → Prop} (hadvance : ∀ s, P s → P (s.advance 1))
    (hexec : ∀ i s t, exec i s = .next t → P s → P t) (hpass : ∀ s, P s → P s.betweenPasses)
    {s t : State} (hstep : step s = .next t) (h : P s) : P t := by
  rcases step_cases s with ⟨-, he⟩ | ⟨_, _, -, -, he⟩ | ⟨_, _, i, -, -, -, he⟩ | ⟨_, _, _, -, -, -, he⟩ <;>
    rw [he] at hstep
  · exact Host.Outcome.next.inj hstep ▸ hpass s h
  · exact hexec .endList s t hstep h
  · exact hexec i _ t hstep (hadvance s h)
  · exact Host.Outcome.next.inj hstep ▸ hadvance s h

/-! The start of a pass -/

/-- The frame reset with its releases done (R300, R302). -/
theorem State.frameReset_eq (s : State) :
    s.frameReset =
      { s with
        tile := Vector.replicate Config.nTiles Tile.zero
        out := s.out ++ s.held.map Event.releaseTexture
        legacyTex := none
        mv := identity
        pj := identity
        mvp := identity
        tscaleS := Config.tscaleFull
        tscaleT := Config.tscaleFull
        cont0 := 0#32
        cont1 := 0#32
        vc := Vector.ofFn fun i => openVertex s.frames i
        timg := openTimg s.frames
        tlut := Vector.ofFn fun k => (Config.unspecified s.frames (.tlut k)).setWidth 16
        prim := openColour s.frames .prim
        env := openColour s.frames .env
        fill := Config.unspecified s.frames .fill
        frames := s.frames + 1 } := by
  obtain ⟨legacy, he⟩ := s.foldl_zeroTile
  rw [State.frameReset, he]

/-- Between passes: nothing, or the frame reset, the memory and the resolver of the next pass, and at most its list
entered (R292, R293). -/
theorem State.betweenPasses_cases (s : State) :
    (s.requests = [] ∧ s.betweenPasses = s) ∨
    ∃ p rest stack, s.requests = p :: rest ∧ (stack = [] ∨ ∃ base, stack = [⟨base, 0, false⟩]) ∧
      s.betweenPasses =
        { ({ s with requests := rest } : State).frameReset with
          resolver := p.resolver, mem := p.mem, stack := stack } := by
  unfold State.betweenPasses
  cases s.requests with
  | nil => exact .inl ⟨rfl, rfl⟩
  | cons p rest =>
    right
    simp only [State.startPass, State.enterPass]
    split
    · exact ⟨p, rest, [], rfl, .inl rfl, rfl⟩
    · next base _ => exact ⟨p, rest, [⟨base, 0, false⟩], rfl, .inr ⟨base, rfl⟩, rfl⟩

end Sys2Proof.Machine
end

section
/-! SUPPORT. The walker's stack: what a command does to it, its length, and that the list being interpreted is not
marked to end (R44, R46, R121, R124). -/

namespace Sys2Proof.Machine

/-- What a command does to the stack: nothing, the move past two continuation entries, the return from a list, or the
entry of one (R121, R124, R236). -/
theorem exec_stack_cases {i : Instr} {s t : State} (h : exec i s = .next t) :
    t.stack = s.stack ∨ t.stack = (s.advance 2).stack ∨ t.stack = popFrames s.stack ∨
    ∃ base, s.stack.length ≤ 32 ∧
      (t.stack = ⟨base, 0, false⟩ :: s.stack ∨ t.stack = ⟨base, 0, false⟩ :: markTail s.stack) := by
  have hf := exec_frame h
  cases i
  case dl j addr =>
    rcases execDl_cases j addr s with ⟨base, -, hlen, he⟩ | ⟨-, he⟩ <;>
      obtain rfl := Host.Outcome.next.inj (he.symm.trans h)
    · refine .inr (.inr (.inr ⟨base, hlen, ?_⟩))
      unfold State.callList
      split
      · exact .inr rfl
      · exact .inl rfl
    · unfold State.skipList
      split
      · exact .inr (.inr (.inl rfl))
      · exact .inl rfl
  case endList =>
    obtain rfl : _ = t := Host.Outcome.next.inj h
    exact .inr (.inr (.inl rfl))
  case texrect | texrectm =>
    exact .inr (.inl (congrArg State.stack hf :))
  all_goals exact .inl (congrArg State.stack hf :)

@[simp] theorem State.advance_stack_length (s : State) (n : Nat) : (s.advance n).stack.length = s.stack.length := by
  unfold State.advance
  split <;> simp_all

theorem exec_stack_length_le {i : Instr} {s t : State} (h : exec i s = .next t) (hs : s.stack.length ≤ 33) :
    t.stack.length ≤ 33 := by
  rcases exec_stack_cases h with he | he | he | ⟨base, hlen, he | he⟩ <;> rw [he]
  · exact hs
  · rwa [s.advance_stack_length]
  · exact (popFrames_length_le s.stack).trans (by omega)
  · exact Nat.succ_le_succ hlen
  · rw [List.length_cons, markTail_length]
    exact Nat.succ_le_succ hlen

theorem State.betweenPasses_stack_length_le (s : State) (hs : s.stack.length ≤ 33) :
    s.betweenPasses.stack.length ≤ 33 := by
  rcases s.betweenPasses_cases with ⟨-, he⟩ | ⟨p, rest, stack, -, rfl | ⟨base, rfl⟩, he⟩ <;> rw [he]
  · exact hs
  · exact Nat.zero_le 33
  · exact Nat.le_of_ble_eq_true rfl

/-- The list being interpreted is not marked to end (R44, R124). -/
def topOpen (l : List Frame) : Prop := ∀ f fs, l = f :: fs → f.tail = false

theorem topOpen_cons {f : Frame} (hf : f.tail = false) (fs : List Frame) : topOpen (f :: fs) := by
  intro g gs h
  rw [← (List.cons.inj h).1, hf]

theorem topOpen_nil : topOpen [] := fun _ _ h => nomatch h

theorem State.topOpen_advance (s : State) (n : Nat) (hs : topOpen s.stack) : topOpen (s.advance n).stack := by
  cases h : s.stack with
  | nil => simp only [State.advance, h]; exact topOpen_nil
  | cons f fs =>
    rw [s.advance_cons n f fs h]
    exact topOpen_cons (f := { f with cursor := f.cursor + n }) (hs f fs h) fs

/-- A return stops at the first caller that is not marked (R121). -/
theorem topOpen_popFrames (l : List Frame) : topOpen (popFrames l) := by
  intro f fs h
  have := List.head?_dropWhile_not Frame.tail l.tail
  simpa [← popFrames.eq_def, h] using this

theorem exec_topOpen {i : Instr} {s t : State} (h : exec i s = .next t) (hs : topOpen s.stack) : topOpen t.stack := by
  rcases exec_stack_cases h with he | he | he | ⟨base, -, he | he⟩ <;> rw [he]
  · exact hs
  · exact s.topOpen_advance 2 hs
  · exact topOpen_popFrames s.stack
  · exact topOpen_cons rfl _
  · exact topOpen_cons rfl _

theorem State.betweenPasses_topOpen (s : State) (hs : topOpen s.stack) : topOpen s.betweenPasses.stack := by
  rcases s.betweenPasses_cases with ⟨-, he⟩ | ⟨p, rest, stack, -, rfl | ⟨base, rfl⟩, he⟩ <;> rw [he]
  · exact hs
  · exact topOpen_nil
  · exact topOpen_cons rfl _

end Sys2Proof.Machine
end

section
/-! SUPPORT. The output trace only grows: what an operation finds in the trace it leaves in
front of what it appends (R50). -/

namespace Sys2Proof.Machine

theorem State.emit_out_prefix (s : State) (e : Event) : s.out <+: (s.emit e).out := List.prefix_append _ _

theorem State.release_out_prefix (s : State) (t : Fin 8) : s.out <+: (s.release t).out := by
  rw [s.release_eq t]
  exact List.prefix_append _ _

theorem State.realize_out_prefix (s : State) (t : Fin 8) : s.out <+: (s.realize t).out := by
  rcases s.realize_cases t with ⟨he, -⟩ | ⟨loc, -, -, -, he⟩ <;> rw [he]
  · exact s.release_out_prefix t
  · exact (s.release_out_prefix t).trans (List.prefix_append _ _)

theorem State.ensureRealized_out_prefix (s : State) (t : Fin 8) : s.out <+: (s.ensureRealized t).out := by
  rcases s.ensureRealized_cases t with ⟨he, -⟩ | ⟨-, -, he⟩ <;> rw [he]
  exact s.realize_out_prefix t

theorem State.emitTri_out_prefix (s : State) (f0 f1 f2 : BitVec 8) : s.out <+: (s.emitTri f0 f1 f2).out := by
  rcases s.emitTri_cases f0 f1 f2 with he | ⟨_, _, _, -, -, -, -, -, -, he⟩ <;> rw [he]
  exact (s.ensureRealized_out_prefix 0).trans (State.emit_out_prefix _ _)

/-- The events of a rectangle come after the trace before it (R231). -/
theorem State.emitRect_out_prefix (s : State) (tex : Option Handle) (x0 y0 x1 y1 u0 v0 u1 v1 : F32) (c : Rgba) :
    s.out <+: (s.emitRect tex x0 y0 x1 y1 u0 v0 u1 v1 c).out :=
  ((s.emit_out_prefix _).trans (State.emit_out_prefix _ _)).trans (State.emit_out_prefix _ _)

theorem State.texrect_out_prefix (s : State) (lrx lry : BitVec 12) (t : Fin 8) (ulx uly : BitVec 12) :
    s.out <+: (s.texrect lrx lry t ulx uly).out := by
  have hreal := s.takeContinuation.ensureRealized_out_prefix t
  rw [s.takeContinuation_out] at hreal
  rcases s.texrect_cases lrx lry t ulx uly with ⟨he, -⟩ | ⟨h, -, -, -, he⟩ <;> rw [he]
  · exact hreal
  · exact hreal.trans (State.emitRect_out_prefix _ _ _ _ _ _ _ _ _ _ _)

theorem exec_out_prefix {i : Instr} {s t : State} (h : exec i s = .next t) : s.out <+: t.out := by
  have hf := exec_frame h
  cases i
  case fillrect lrx lry ulx uly =>
    obtain rfl : _ = t := Host.Outcome.next.inj h
    split
    · exact List.prefix_rfl
    · exact State.emitRect_out_prefix _ _ _ _ _ _ _ _ _ _ _
  case settilesize uls ult tile lrs lrt =>
    rcases execSettilesize_cases uls ult tile lrs lrt s with ⟨-, he⟩ | ⟨-, he⟩ <;>
      obtain rfl := Host.Outcome.next.inj (he.symm.trans h)
    · exact State.realize_out_prefix (s.setBounds tile.toFin uls ult lrs lrt) _
    · exact List.prefix_rfl
  case texrect | texrectm =>
    obtain rfl : _ = t := Host.Outcome.next.inj h
    exact s.texrect_out_prefix _ _ _ _ _
  case tri1 =>
    obtain rfl : _ = t := Host.Outcome.next.inj h
    exact s.emitTri_out_prefix _ _ _
  case tri2 | quad =>
    obtain rfl : _ = t := Host.Outcome.next.inj h
    exact (s.emitTri_out_prefix _ _ _).trans (State.emitTri_out_prefix _ _ _ _)
  all_goals exact (congrArg State.out hf) ▸ List.prefix_rfl

theorem State.betweenPasses_out_prefix (s : State) : s.out <+: s.betweenPasses.out := by
  rcases s.betweenPasses_cases with ⟨-, he⟩ | ⟨p, rest, stack, -, -, he⟩ <;> rw [he]
  rw [State.frameReset_eq]
  exact List.prefix_append _ _

end Sys2Proof.Machine
end

section
/-! SUPPORT. The product of matrices element by element, and the identity on its left (R142, R144). -/

namespace Sys2Proof.Machine

theorem matMul_getElem (a b : Mat) (i j : Fin 4) : (matMul a b)[i][j] =
    fadd (fadd (fadd (fmul a[i][0] b[0][j]) (fmul a[i][1] b[1][j])) (fmul a[i][2] b[2][j])) (fmul a[i][3] b[3][j]) := by
  simp [matMul, Mat.of]

theorem Mat.ext_getElem {a b : Mat} (h : ∀ i j : Fin 4, a[i][j] = b[i][j]) : a = b :=
  Vector.ext fun i hi => Vector.ext fun j hj => h ⟨i, hi⟩ ⟨j, hj⟩

theorem identity_getElem (i j : Fin 4) : identity[i][j] = if i = j then 0x3F800000#32 else 0#32 := by
  revert i j
  decide

/-! Floats beside a zero and a one -/

theorem fisFinite_of_fisZero {z : F32} (h : fisZero z = true) : fisFinite z = true := by
  simp only [fisZero, decide_eq_true_eq] at h
  rw [fisFinite_iff, h]
  decide

theorem fval_of_fisZero {z : F32} (h : fisZero z = true) : fval z = 0 := by
  rwa [fval_eq_zero_iff, ← fisZero_iff]

theorem fisZero_fzero (neg : Bool) : fisZero (fzero neg) = true := by cases neg <;> decide

/-- A finite value read as an integer has the value's sign, unless it is a zero. -/
theorem decide_fval_neg {a : F32} (h : fval a ≠ 0) : decide (fval a < 0) = fsign a := by
  have hmag : fmag a ≠ 0 := mt (fval_eq_zero_iff a).mpr h
  unfold fval
  cases fsign a <;> simp
  omega

theorem fmul_one_left {a : F32} (ha : fisFinite a = true) : fmul 0x3F800000#32 a = a := by
  have hone : fisFinite 0x3F800000#32 = true ∧ fsign 0x3F800000#32 = false ∧ fmag 0x3F800000#32 = 2 ^ 149 := by decide
  obtain ⟨hfin, hsign, hmag⟩ := hone
  rw [fmul_finite hfin ha, hsign, hmag, Bool.false_bne]
  exact roundRatio_exact a _ _ ha (by positivity)
    (by rw [Nat.pow_add 2 149 149, Nat.mul_comm (2 ^ 149), Nat.mul_assoc])

theorem fisZero_fmul_zero_left {a : F32} (ha : fisFinite a = true) : fisZero (fmul 0#32 a) = true := by
  have hmag : fmag 0#32 = 0 := by decide
  rw [fmul_finite (by decide) ha, hmag, Nat.zero_mul, roundRatio_zero]
  exact fisZero_fzero _

theorem fisZero_fadd {y z : F32} (hy : fisZero y = true) (hz : fisZero z = true) : fisZero (fadd y z) = true := by
  rw [fadd, faddAs_finite _ _ _ (fisFinite_of_fisZero hy) (fisFinite_of_fisZero hz), fval_of_fisZero hy,
    fval_of_fisZero hz, if_pos (add_zero 0)]
  exact fisZero_fzero _

/-- A zero that is no negative zero is +0.0. -/
theorem eq_zero_of_plainFloat {a : F32} (ha : plainFloat a) (h : fval a = 0) : a = 0#32 := by
  rw [fval_eq_zero_iff, fmag_eq_zero_iff] at h
  have hpack := fpack_fsign_fmagBits a
  rw [h] at hpack
  cases hs : fsign a with
  | false => rw [← hpack, hs]; decide
  | true => exact absurd (by rw [← hpack, hs]; decide) ha.2

/-- What a sum beside a zero comes to: the value itself, exactly (R10). -/
theorem round_fval {a : F32} (ha : plainFloat a) (neg : Bool) :
    (if fval a = 0 then fzero (fsign a && neg)
      else roundRatio (decide (fval a < 0)) (fval a).natAbs (2 ^ 149)) = a := by
  split
  · next h0 =>
    rw [eq_zero_of_plainFloat ha h0]
    rfl
  · next h0 =>
    rw [decide_fval_neg h0, natAbs_fval]
    exact roundRatio_exact a _ _ ha.1 (Nat.two_pow_pos 149) rfl

theorem fadd_zero_right {a z : F32} (ha : plainFloat a) (hz : fisZero z = true) : fadd a z = a := by
  rw [fadd, faddAs_finite _ _ _ ha.1 (fisFinite_of_fisZero hz), fval_of_fisZero hz, add_zero]
  exact round_fval ha _

theorem fadd_zero_left {a z : F32} (ha : plainFloat a) (hz : fisZero z = true) : fadd z a = a := by
  rw [fadd, faddAs_finite _ _ _ (fisFinite_of_fisZero hz) ha.1, fval_of_fisZero hz, zero_add, Bool.and_comm]
  exact round_fval ha _

/-- A sum of four in which all but one are zeros. -/
theorem sum_of_zeros (x : Fin 4 → F32) (k : Fin 4) (hk : plainFloat (x k)) (hz : ∀ n, n ≠ k → fisZero (x n) = true) :
    fadd (fadd (fadd (x 0) (x 1)) (x 2)) (x 3) = x k := by
  match k with
  | 0 => rw [fadd_zero_right hk (hz 1 (by decide)), fadd_zero_right hk (hz 2 (by decide)),
      fadd_zero_right hk (hz 3 (by decide))]
  | 1 => rw [fadd_zero_left hk (hz 0 (by decide)), fadd_zero_right hk (hz 2 (by decide)),
      fadd_zero_right hk (hz 3 (by decide))]
  | 2 => rw [fadd_zero_left hk (fisZero_fadd (hz 0 (by decide)) (hz 1 (by decide))),
      fadd_zero_right hk (hz 3 (by decide))]
  | 3 =>
    have h01 := fisZero_fadd (hz 0 (by decide)) (hz 1 (by decide))
    exact fadd_zero_left hk (fisZero_fadd h01 (hz 2 (by decide)))

/-- The identity is neutral on the left of finite elements without negative zeros (R144). -/
theorem matMul_identity_left (m : Mat) (hm : ∀ i j : Fin 4, plainFloat m[i][j]) : matMul identity m = m := by
  refine Mat.ext_getElem fun i j => ?_
  have hself : fmul identity[i][i] m[i][j] = m[i][j] := by
    rw [identity_getElem, if_pos rfl, fmul_one_left (hm i j).1]
  have hother : ∀ k, k ≠ i → fisZero (fmul identity[i][k] m[k][j]) = true := by
    intro k hk
    rw [identity_getElem, if_neg hk.symm]
    exact fisZero_fmul_zero_left (hm k j).1
  rw [matMul_getElem]
  exact (sum_of_zeros (fun k => fmul identity[i][k] m[k][j]) i (hself ▸ hm i j) hother).trans hself

theorem plainFloat_identity (i j : Fin 4) : plainFloat identity[i][j] := by
  rw [identity_getElem]
  split <;> exact ⟨by decide, by decide⟩

theorem compose_identity : compose identity identity = identity := matMul_identity_left identity plainFloat_identity

/-! `MVP` (R21) -/

theorem exec_matrices {i : Instr} {s t : State} (h : exec i s = .next t) (hi : i.opcode ∉ [.mtx, .popmtx]) :
    t.mv = s.mv ∧ t.pj = s.pj ∧ t.mvp = s.mvp := by
  have hf := exec_frame h
  cases i
  case mtx | popmtx => exact absurd (by simp [Instr.opcode]) hi
  all_goals exact ⟨(congrArg State.mv hf :), (congrArg State.pj hf :), (congrArg State.mvp hf :)⟩

theorem exec_mvp_eq {i : Instr} {s t : State} (h : exec i s = .next t) (hs : s.mvp = compose s.mv s.pj) :
    t.mvp = compose t.mv t.pj := by
  by_cases hi : i.opcode ∈ [.mtx, .popmtx]
  · cases i
    case mtx j l p addr =>
      rcases execMtx_cases j l p addr s with ⟨-, he⟩ | ⟨loc, -, he⟩ <;>
        obtain rfl := Host.Outcome.next.inj (he.symm.trans h)
      · exact hs
      · rfl
    case popmtx =>
      obtain rfl : _ = t := Host.Outcome.next.inj h
      rfl
    all_goals simp [Instr.opcode] at hi
  · obtain ⟨hmv, hpj, hmvp⟩ := exec_matrices h hi
    rw [hmv, hpj, hmvp, hs]

theorem State.betweenPasses_mvp_eq (s : State) (hs : s.mvp = compose s.mv s.pj) :
    s.betweenPasses.mvp = compose s.betweenPasses.mv s.betweenPasses.pj := by
  rcases s.betweenPasses_cases with ⟨-, he⟩ | ⟨_, _, _, -, -, he⟩ <;> rw [he]
  · exact hs
  · exact compose_identity.symm

end Sys2Proof.Machine
end

section
/-! SUPPORT. Handles and tiles: the answer of the adapter, and what keeps every tile's size in range, the handles apart
and the legacy register equal to tile 0's (R30, R32, R38, R51); with them, every clause of the invariant. -/

namespace Sys2Proof.Machine

/-- The running maximum is at least its start and every element. -/
theorem le_foldl_max (l : List Nat) (a : Nat) : a ≤ l.foldl max a ∧ ∀ x ∈ l, x ≤ l.foldl max a := by
  induction l generalizing a with
  | nil => exact ⟨le_rfl, fun _ h => nomatch h⟩
  | cons y l ih =>
    obtain ⟨hstart, helem⟩ := ih (max a y)
    refine ⟨(le_max_left a y).trans hstart, fun x hx => ?_⟩
    rcases List.mem_cons.mp hx with rfl | hx
    · exact (le_max_right a x).trans hstart
    · exact helem x hx

theorem freshHandle_not_mem (held : List Handle) (answer : Handle) : freshHandle held answer ∉ held := by
  unfold freshHandle
  split
  · exact fun h => absurd ((le_foldl_max held answer).2 _ h) (Nat.not_succ_le_self _)
  · assumption

theorem State.nextHandle_not_mem (s : State) : s.nextHandle ∉ s.held := freshHandle_not_mem _ _

theorem State.toList_tile (s : State) : s.tile.toList = List.ofFn s.tileAt := by
  refine List.ext_getElem (by simp) fun i h1 h2 => ?_
  rw [Vector.getElem_toList, List.getElem_ofFn]
  rfl

/-- The handles held are distinct exactly when no two tiles hold the same one (R32). -/
theorem State.held_nodup_iff (s : State) :
    s.held.Nodup ↔ ∀ (j k : Fin 8) (h : Handle), (s.tileAt j).tex = some h → (s.tileAt k).tex = some h → j = k := by
  rw [State.held, s.toList_tile, List.Nodup, List.pairwise_filterMap, List.pairwise_ofFn]
  constructor
  · intro hpair j k h hj hk
    rcases lt_trichotomy j k with hlt | heq | hlt
    · exact absurd rfl (hpair hlt h hj h hk)
    · exact heq
    · exact absurd rfl (hpair hlt h hk h hj)
  · rintro hinj j k hlt h hj _ hk rfl
    exact hlt.ne (hinj j k h hj hk)

/-- What the invariant says of the tiles (R30, R32, R38). -/
structure State.TilesOk (s : State) : Prop where
  legacy_eq : s.legacyTex = (s.tileAt 0).tex
  sizes : ∀ t : Fin 8, sizeInRange (s.tileAt t).width ∧ sizeInRange (s.tileAt t).height
  handles : s.held.Nodup

theorem State.TilesOk.congr {s t : State} (h : s.TilesOk) (htile : t.tile = s.tile)
    (hlegacy : t.legacyTex = s.legacyTex) : t.TilesOk := by
  have hat : ∀ k, t.tileAt k = s.tileAt k := fun k => by rw [State.tileAt, htile, State.tileAt]
  have hheld : t.held = s.held := by rw [State.held, htile, State.held]
  exact ⟨by rw [hlegacy, hat, h.legacy_eq], fun k => by rw [hat]; exact h.sizes k, by rw [hheld]; exact h.handles⟩

/-- Writing a descriptor with sizes in range and the texture the tile holds. -/
theorem State.TilesOk.setTile {s : State} (h : s.TilesOk) (t : Fin 8) {d : Tile} (htex : d.tex = (s.tileAt t).tex)
    (hsize : sizeInRange d.width ∧ sizeInRange d.height) : (s.setTile t d).TilesOk := by
  have hkeep : ∀ k, ((s.setTile t d).tileAt k).tex = (s.tileAt k).tex := by
    intro k
    rw [State.tileAt_setTile]
    split
    · next heq => rw [htex, heq]
    · rfl
  refine ⟨h.legacy_eq.trans (hkeep 0).symm, fun k => ?_, ?_⟩
  · rw [State.tileAt_setTile]
    split
    · exact hsize
    · exact h.sizes k
  · rw [State.held_nodup_iff]
    intro j k x hj hk
    rw [hkeep] at hj hk
    exact s.held_nodup_iff.mp h.handles j k x hj hk

/-- Writing a tile's texture: none, or one that no tile holds. -/
theorem State.TilesOk.setTex {s : State} (h : s.TilesOk) (t : Fin 8) {x : Option Handle}
    (hx : ∀ hd ∈ x, hd ∉ s.held) : (s.setTex t x).TilesOk := by
  refine ⟨?_, fun k => ?_, ?_⟩
  · rw [State.tileAt_setTex, State.setTex_legacyTex]
    split
    · rfl
    · exact h.legacy_eq
  · rw [State.tileAt_setTex]
    split <;> exact h.sizes k
  · rw [State.held_nodup_iff]
    intro j k hd hj hk
    have hfresh : ∀ k', x = some hd → (s.tileAt k').tex ≠ some hd :=
      fun k' he hk' => hx hd he ((s.mem_held hd).mpr ⟨k', hk'⟩)
    rw [State.tileAt_setTex] at hj hk
    split at hj <;> split at hk
    · next hj' hk' => exact hj'.symm.trans hk'
    · exact absurd hk (hfresh k hj)
    · exact absurd hj (hfresh j hk)
    · exact s.held_nodup_iff.mp h.handles j k hd hj hk

theorem State.TilesOk.release {s : State} (h : s.TilesOk) (t : Fin 8) : (s.release t).TilesOk := by
  rcases s.release_cases t with ⟨-, he⟩ | ⟨hd, -, he⟩ <;> rw [he]
  · exact h
  · exact (h.congr (t := s.emit (.releaseTexture hd)) rfl rfl).setTex t (fun _ hx => nomatch hx)

theorem State.TilesOk.createTexture {s : State} (h : s.TilesOk) (t : Fin 8) (buf : List Byte) :
    (s.createTexture t buf).TilesOk := by
  rw [State.createTexture]
  refine State.TilesOk.setTex (s := s.takeAnswer.emit _) (h.congr rfl rfl) t fun hd hx => ?_
  obtain rfl := Option.some.inj hx
  exact s.nextHandle_not_mem

theorem State.TilesOk.realize {s : State} (h : s.TilesOk) (t : Fin 8) : (s.realize t).TilesOk := by
  rcases s.realize_cases t with ⟨he, -⟩ | ⟨_, -, -, -, he⟩ <;> rw [he]
  · exact h.release t
  · exact (h.release t).createTexture t _

theorem State.TilesOk.ensureRealized {s : State} (h : s.TilesOk) (t : Fin 8) : (s.ensureRealized t).TilesOk := by
  rcases s.ensureRealized_cases t with ⟨he, -⟩ | ⟨-, -, he⟩ <;> rw [he]
  · exact h
  · exact h.realize t

theorem State.TilesOk.emitTri {s : State} (h : s.TilesOk) (f0 f1 f2 : BitVec 8) : (s.emitTri f0 f1 f2).TilesOk := by
  rcases s.emitTri_cases f0 f1 f2 with he | ⟨_, _, _, -, -, -, -, -, -, he⟩ <;> rw [he]
  · exact h
  · exact (h.ensureRealized 0).congr rfl rfl

@[simp] theorem State.drawTexrect_tile (s : State) (d : Tile) (h : Handle) (lrx lry ulx uly : BitVec 12) :
    (s.drawTexrect d h lrx lry ulx uly).tile = s.tile := rfl

@[simp] theorem State.drawTexrect_legacyTex (s : State) (d : Tile) (h : Handle) (lrx lry ulx uly : BitVec 12) :
    (s.drawTexrect d h lrx lry ulx uly).legacyTex = s.legacyTex := rfl

theorem State.TilesOk.texrect {s : State} (h : s.TilesOk) (lrx lry : BitVec 12) (t : Fin 8) (ulx uly : BitVec 12) :
    (s.texrect lrx lry t ulx uly).TilesOk := by
  have hr := (h.congr s.takeContinuation_tile s.takeContinuation_legacyTex).ensureRealized t
  rcases s.texrect_cases lrx lry t ulx uly with ⟨he, -⟩ | ⟨_, -, -, -, he⟩ <;> rw [he]
  · exact hr
  · exact hr.congr (State.drawTexrect_tile _ _ _ _ _ _ _) (State.drawTexrect_legacyTex _ _ _ _ _ _ _)

/-- A size computed from two 10.2 bounds is in its range (R30, R180). -/
theorem sizeInRange_extent (lo hi : BitVec 12) : sizeInRange (extent lo hi) := by
  have hlo := lo.isLt
  have hhi := hi.isLt
  unfold sizeInRange extent
  omega

theorem State.TilesOk.setBounds {s : State} (h : s.TilesOk) (t : Fin 8) (uls ult lrs lrt : BitVec 12) :
    (s.setBounds t uls ult lrs lrt).TilesOk :=
  h.setTile t rfl ⟨sizeInRange_extent uls lrs, sizeInRange_extent ult lrt⟩

theorem State.TilesOk.bindSource {s : State} (h : s.TilesOk) (t : Fin 8) : (s.bindSource t).TilesOk :=
  h.setTile t rfl (h.sizes t)

theorem exec_tilesOk {i : Instr} {s t : State} (h : exec i s = .next t) (hs : s.TilesOk) : t.TilesOk := by
  have hf := exec_frame h
  cases i
  case settile =>
    obtain rfl : _ = t := Host.Outcome.next.inj h
    exact hs.setTile _ rfl (hs.sizes _)
  case loadtile | loadblock =>
    obtain rfl : _ = t := Host.Outcome.next.inj h
    exact hs.bindSource _
  case settilesize uls ult tile lrs lrt =>
    have hb := hs.setBounds tile.toFin uls ult lrs lrt
    rcases execSettilesize_cases uls ult tile lrs lrt s with ⟨-, he⟩ | ⟨-, he⟩ <;>
      obtain rfl := Host.Outcome.next.inj (he.symm.trans h)
    · exact hb.realize tile.toFin
    · exact hb.bindSource tile.toFin
  case texrect | texrectm =>
    obtain rfl : _ = t := Host.Outcome.next.inj h
    exact hs.texrect _ _ _ _ _
  case tri1 =>
    obtain rfl : _ = t := Host.Outcome.next.inj h
    exact hs.emitTri _ _ _
  case tri2 | quad =>
    obtain rfl : _ = t := Host.Outcome.next.inj h
    exact (hs.emitTri _ _ _).emitTri _ _ _
  all_goals exact hs.congr (congrArg State.tile hf :) (congrArg State.legacyTex hf :)

theorem State.betweenPasses_tilesOk (s : State) (hs : s.TilesOk) : s.betweenPasses.TilesOk := by
  rcases s.betweenPasses_cases with ⟨-, he⟩ | ⟨p, rest, stack, -, -, he⟩ <;> rw [he]
  · exact hs
  · rw [State.frameReset_eq]
    have hzero : ∀ k : Fin 8, (Vector.replicate Config.nTiles Tile.zero)[k] = Tile.zero := by simp
    refine ⟨?_, fun k => ?_, ?_⟩
    · rw [State.tileAt, hzero]; rfl
    · rw [State.tileAt, hzero]; simp [Tile.zero, sizeInRange]
    · rw [State.held_nodup_iff]
      intro j k x hj
      rw [State.tileAt, hzero] at hj
      exact nomatch hj

/-! The rest of the invariant -/

/-- A command leaves the inputs of the pass as they are (R70, R75). -/
theorem exec_inputs {i : Instr} {s t : State} (h : exec i s = .next t) :
    t.mem = s.mem ∧ t.resolver = s.resolver ∧ t.params = s.params ∧ t.requests = s.requests ∧
      t.frames = s.frames := by
  have hf := exec_frame h
  cases i
  all_goals exact ⟨(congrArg State.mem hf :), (congrArg State.resolver hf :), (congrArg State.params hf :),
    (congrArg State.requests hf :), (congrArg State.frames hf :)⟩

/-- `TIMG.stride` in its range (R34). -/
def strideInRange (stride : BitVec 13) : Prop := 1 ≤ stride.toNat ∧ stride.toNat ≤ 4096

/-- A 12-bit field plus one, in 13 bits. -/
theorem strideInRange_field (f : BitVec 12) : strideInRange (f.setWidth 13 + 1#13) := by
  have hf := f.isLt
  simp only [strideInRange, BitVec.toNat_add, BitVec.toNat_setWidth, BitVec.toNat_ofNat]
  omega

theorem exec_stride {i : Instr} {s t : State} (h : exec i s = .next t) (hs : strideInRange s.timg.stride) :
    strideInRange t.timg.stride := by
  have hf := exec_frame h
  cases i
  case settimg =>
    obtain rfl : _ = t := Host.Outcome.next.inj h
    exact strideInRange_field _
  all_goals exact (congrArg State.timg hf :) ▸ hs

theorem State.Inv.tilesOk {s : State} (h : s.Inv) : s.TilesOk := ⟨h.legacy_eq, h.sizes, h.handles⟩

theorem exec_keeps_inv {i : Instr} {s t : State} (h : exec i s = .next t) (hs : s.Inv) : t.Inv := by
  obtain ⟨hlegacy, hsizes, hhandles⟩ := exec_tilesOk h hs.tilesOk
  obtain ⟨hmem, -, hparams, hrequests, -⟩ := exec_inputs h
  exact {
    mvp_eq := exec_mvp_eq h hs.mvp_eq
    legacy_eq := hlegacy
    stack_le := exec_stack_length_le h hs.stack_le
    top_open := exec_topOpen h hs.top_open
    sizes := hsizes
    handles := hhandles
    stride := exec_stride h hs.stride
    mem_wf := hmem ▸ hs.mem_wf
    requests_wf := hrequests ▸ hs.requests_wf
    params_wf := hparams ▸ hs.params_wf }

theorem State.Inv.advance {s : State} (h : s.Inv) (n : Nat) : (s.advance n).Inv := by
  obtain ⟨hlegacy, hsizes, hhandles⟩ := h.tilesOk.congr (s.advance_tile n) (s.advance_legacyTex n)
  exact {
    mvp_eq := by simpa using h.mvp_eq
    legacy_eq := hlegacy
    stack_le := by simpa using h.stack_le
    top_open := s.topOpen_advance n h.top_open
    sizes := hsizes
    handles := hhandles
    stride := by simpa using h.stride
    mem_wf := by simpa using h.mem_wf
    requests_wf := by simpa using h.requests_wf
    params_wf := by simpa using h.params_wf }

theorem State.Inv.betweenPasses {s : State} (h : s.Inv) : s.betweenPasses.Inv := by
  obtain ⟨hlegacy, hsizes, hhandles⟩ := s.betweenPasses_tilesOk h.tilesOk
  rcases s.betweenPasses_cases with ⟨-, he⟩ | ⟨p, rest, stack, hreq, -, he⟩
  · rwa [he]
  · have hin : p ∈ s.requests := by simp [hreq]
    have hrest : ∀ q ∈ rest, q ∈ s.requests := fun q hq => by simp [hreq, hq]
    exact {
      mvp_eq := s.betweenPasses_mvp_eq h.mvp_eq
      legacy_eq := hlegacy
      stack_le := s.betweenPasses_stack_length_le h.stack_le
      top_open := s.betweenPasses_topOpen h.top_open
      sizes := hsizes
      handles := hhandles
      stride := by rw [he]; exact strideInRange_field _
      mem_wf := by rw [he]; exact h.requests_wf p hin
      requests_wf := by rw [he, State.frameReset_eq]; exact fun q hq => h.requests_wf q (hrest q hq)
      params_wf := by rw [he, State.frameReset_eq]; exact h.params_wf }

end Sys2Proof.Machine
end

section
/-! SUPPORT. Nothing reads what `State.erase` takes out (R31, R34, R36, R37): every operation does the same, up to what
is erased, on two states that agree on the rest. -/

namespace Sys2Proof.Machine

/-! Reads of an erased state -/

@[simp] theorem Tile.erase_src (d : Tile) : d.erase.src = d.src := rfl
@[simp] theorem Tile.erase_width (d : Tile) : d.erase.width = d.width := rfl
@[simp] theorem Tile.erase_height (d : Tile) : d.erase.height = d.height := rfl
@[simp] theorem Tile.erase_tex (d : Tile) : d.erase.tex = d.tex := rfl

@[simp] theorem State.erase_stack (s : State) : s.erase.stack = s.stack := rfl
@[simp] theorem State.erase_params (s : State) : s.erase.params = s.params := rfl
@[simp] theorem State.erase_mem (s : State) : s.erase.mem = s.mem := rfl
@[simp] theorem State.erase_tlut (s : State) : s.erase.tlut = s.tlut := rfl

@[simp] theorem State.erase_tileAt (s : State) (t : Fin 8) : s.erase.tileAt t = (s.tileAt t).erase := by
  simp [State.tileAt, State.erase]

@[simp] theorem State.erase_held (s : State) : s.erase.held = s.held := by
  simp only [State.held, State.erase, Vector.toList_map, List.filterMap_map]
  rfl

@[simp] theorem State.erase_nextHandle (s : State) : s.erase.nextHandle = s.nextHandle := by
  rw [State.nextHandle, State.erase_held]
  rfl

@[simp] theorem State.erase_resolve (s : State) (a : Addr) : s.erase.resolve a = s.resolve a := rfl

/-! Operations that commute with the erasure -/

theorem State.erase_emit (s : State) (e : Event) : (s.emit e).erase = s.erase.emit e := rfl

theorem State.erase_takeAnswer (s : State) : s.takeAnswer.erase = s.erase.takeAnswer := rfl

theorem State.erase_returnFromList (s : State) : s.returnFromList.erase = s.erase.returnFromList := rfl

theorem State.erase_advance (s : State) (n : Nat) : (s.advance n).erase = s.erase.advance n := by
  cases h : s.stack with
  | nil => simp only [State.advance, State.erase_stack, h]
  | cons f fs =>
    rw [s.advance_cons n f fs h, s.erase.advance_cons n f fs h]
    rfl

theorem State.erase_setTile (s : State) (t : Fin 8) (d : Tile) :
    (s.setTile t d).erase = s.erase.setTile t d.erase := by
  simp [State.setTile, State.erase, Vector.map_set]

theorem State.erase_setTex (s : State) (t : Fin 8) (h : Option Handle) :
    (s.setTex t h).erase = s.erase.setTex t h := by
  simp [State.setTex, State.erase, Vector.map_set, State.tileAt]
  rfl

theorem State.erase_emitRect (s : State) (tex : Option Handle) (x0 y0 x1 y1 u0 v0 u1 v1 : F32) (c : Rgba) :
    (s.emitRect tex x0 y0 x1 y1 u0 v0 u1 v1 c).erase = s.erase.emitRect tex x0 y0 x1 y1 u0 v0 u1 v1 c := rfl

theorem State.erase_release (s : State) (t : Fin 8) : (s.release t).erase = s.erase.release t := by
  simp only [State.release, State.erase_tileAt, Tile.erase_tex]
  cases (s.tileAt t).tex with
  | none => rfl
  | some h => exact State.erase_setTex _ _ _

theorem State.erase_createTexture (s : State) (t : Fin 8) (buf : List Byte) :
    (s.createTexture t buf).erase = s.erase.createTexture t buf := by
  simp only [State.createTexture, State.erase_setTex, State.erase_emit, State.erase_takeAnswer, State.erase_tileAt,
    State.erase_nextHandle, Tile.erase_width, Tile.erase_height]

/-- A realization reads of its tile only what is not erased (R185). -/
theorem realizeBuffer_erase (m : Memory) (tlut : Vector (BitVec 16) Config.tlutSize) (d : Tile) (loc : Nat) :
    realizeBuffer m tlut d.erase loc = realizeBuffer m tlut d loc := rfl

theorem State.erase_realize (s : State) (t : Fin 8) : (s.realize t).erase = s.erase.realize t := by
  simp only [State.realize, ← State.erase_release, State.erase_tileAt, Tile.erase_src, Tile.erase_width,
    Tile.erase_height, realizeBuffer_erase, State.erase_mem, State.erase_tlut]
  cases ((s.release t).tileAt t).src with
  | none => rfl
  | some loc =>
    simp only [apply_ite State.erase, State.erase_createTexture]

theorem State.erase_ensureRealized (s : State) (t : Fin 8) :
    (s.ensureRealized t).erase = s.erase.ensureRealized t := by
  simp only [State.ensureRealized, apply_ite State.erase, State.erase_realize, State.erase_tileAt, Tile.erase_tex,
    Tile.erase_src]

theorem State.erase_emitTri (s : State) (f0 f1 f2 : BitVec 8) :
    (s.emitTri f0 f1 f2).erase = s.erase.emitTri f0 f1 f2 := by
  have hvc : s.erase.vc = s.vc := rfl
  have hlegacy : ∀ r : State, r.erase.legacyTex = r.legacyTex := fun _ => rfl
  simp only [State.emitTri, hvc, State.erase_params, ← State.erase_ensureRealized, hlegacy]
  split
  · simp only [apply_ite State.erase, State.erase_emit]
  · rfl

theorem State.erase_loadVertex (s : State) (base : Int) (addr : Addr) (i : Nat) :
    (s.loadVertex base addr i).erase = s.erase.loadVertex base addr i := by
  simp only [State.loadVertex, State.erase_resolve, apply_ite State.erase]
  cases s.resolve (vertexAddr addr i) <;> rfl

/-- A loop of operations that commute with the erasure commutes with it. -/
theorem erase_foldl {α : Type} (f : State → α → State) (hf : ∀ s a, (f s a).erase = f s.erase a) (l : List α)
    (s : State) : (l.foldl f s).erase = l.foldl f s.erase := by
  induction l generalizing s with
  | nil => rfl
  | cons a l ih => rw [List.foldl_cons, List.foldl_cons, ih, hf]

theorem State.erase_bindSource (s : State) (t : Fin 8) : (s.bindSource t).erase = s.erase.bindSource t := by
  rw [State.bindSource, State.erase_setTile, State.bindSource, State.erase_tileAt]
  rfl

theorem State.erase_loadMatrix (s : State) (j l : BitVec 1) (m : Mat) :
    (s.loadMatrix j l m).erase = s.erase.loadMatrix j l m := by
  unfold State.loadMatrix
  split <;> rfl

theorem State.erase_callList (s : State) (j : BitVec 1) (base : Nat) :
    (s.callList j base).erase = s.erase.callList j base := by
  unfold State.callList
  split <;> rfl

theorem State.erase_skipList (s : State) (j : BitVec 1) : (s.skipList j).erase = s.erase.skipList j := by
  unfold State.skipList
  split <;> rfl

/-! Operations on two states that agree on what is read -/

/-- The bounds written are not read, and the ones they replace are not either (R31, R180). -/
theorem State.setBounds_erase_congr {s s' : State} (he : s.erase = s'.erase) (t : Fin 8) (uls ult lrs lrt : BitVec 12) :
    (s.setBounds t uls ult lrs lrt).erase = (s'.setBounds t uls ult lrs lrt).erase := by
  have htile : (s.tileAt t).erase = (s'.tileAt t).erase := by rw [← State.erase_tileAt, he, State.erase_tileAt]
  rw [State.setBounds, State.setBounds, State.erase_setTile, State.erase_setTile, he]
  exact congrArg (fun d : Tile => s'.erase.setTile t { d with width := extent uls lrs, height := extent ult lrt }) htile

/-- SETTILE's fields that are read replace those of the tile (R179). -/
theorem State.setTile_erase_congr {s s' : State} (he : s.erase = s'.erase) (t : Fin 8) {d d' : Tile}
    (hd : d.erase = d'.erase) : (s.setTile t d).erase = (s'.setTile t d').erase := by
  rw [State.erase_setTile, State.erase_setTile, he, hd]

/-- With a list active the continuation words come from memory, whatever the registers held (R37, R236). -/
theorem State.takeContinuation_erase_congr {s s' : State} (he : s.erase = s'.erase) (hs : s.stack ≠ []) :
    s.takeContinuation.erase = s'.takeContinuation.erase ∧ s.takeContinuation.cont0 = s'.takeContinuation.cont0 ∧
      s.takeContinuation.cont1 = s'.takeContinuation.cont1 := by
  have hmem : s.mem = s'.mem := (congrArg State.mem he :)
  have hstack : s.stack = s'.stack := (congrArg State.stack he :)
  obtain ⟨f, fs, hcons⟩ := List.exists_cons_of_ne_nil hs
  rw [s.takeContinuation_cons f fs hcons, s'.takeContinuation_cons f fs (hstack ▸ hcons)]
  exact ⟨congrArg (fun r : State => { r with stack := { f with cursor := f.cursor + 2 } :: fs }) he,
    by rw [hmem], by rw [hmem]⟩

/-- The quad drawn reads the continuation registers, and of the tile its size (R236). -/
theorem State.drawTexrect_erase_congr {s s' : State} (he : s.erase = s'.erase) (h0 : s.cont0 = s'.cont0)
    (h1 : s.cont1 = s'.cont1) {d d' : Tile} (hd : d.erase = d'.erase) (h : Handle) (lrx lry ulx uly : BitVec 12) :
    (s.drawTexrect d h lrx lry ulx uly).erase = (s'.drawTexrect d' h lrx lry ulx uly).erase := by
  have hw : d.width = d'.width := (congrArg Tile.width hd :)
  have hh : d.height = d'.height := (congrArg Tile.height hd :)
  simp only [State.drawTexrect, h0, h1, hw, hh, State.erase_emitRect, he]

theorem State.texrect_erase_congr {s s' : State} (he : s.erase = s'.erase) (hs : s.stack ≠ []) (lrx lry : BitVec 12)
    (t : Fin 8) (ulx uly : BitVec 12) : (s.texrect lrx lry t ulx uly).erase = (s'.texrect lrx lry t ulx uly).erase := by
  obtain ⟨hcont, h0, h1⟩ := State.takeContinuation_erase_congr he hs
  have hreal : (s.takeContinuation.ensureRealized t).erase = (s'.takeContinuation.ensureRealized t).erase := by
    rw [State.erase_ensureRealized, hcont, State.erase_ensureRealized]
  have hkeep0 : ∀ r : State, (r.ensureRealized t).cont0 = r.cont0 := fun r =>
    (congrArg State.cont0 (r.ensureRealized_frame t) :)
  have hkeep1 : ∀ r : State, (r.ensureRealized t).cont1 = r.cont1 := fun r =>
    (congrArg State.cont1 (r.ensureRealized_frame t) :)
  rw [← hkeep0, ← hkeep0 s'.takeContinuation] at h0
  rw [← hkeep1, ← hkeep1 s'.takeContinuation] at h1
  unfold State.texrect
  generalize s.takeContinuation.ensureRealized t = r at *
  generalize s'.takeContinuation.ensureRealized t = r' at *
  have htile : (r.tileAt t).erase = (r'.tileAt t).erase := by rw [← State.erase_tileAt, hreal, State.erase_tileAt]
  have htex : (r.tileAt t).tex = (r'.tileAt t).tex := (congrArg Tile.tex htile :)
  have hw : (r.tileAt t).width = (r'.tileAt t).width := (congrArg Tile.width htile :)
  have hh : (r.tileAt t).height = (r'.tileAt t).height := (congrArg Tile.height htile :)
  simp only [htex, hw, hh]
  cases (r'.tileAt t).tex with
  | none => exact hreal
  | some h =>
    simp only
    split
    · exact hreal
    · exact State.drawTexrect_erase_congr hreal h0 h1 htile h lrx lry ulx uly

/-! Commands and the step -/

/-- An outcome without what no rule reads. -/
def eraseOutcome : Host.Outcome State Fault Refusal → Host.Outcome State Fault Refusal
  | .next s => .next s.erase
  | .fault r => .fault r
  | .refused r => .refused r

theorem eraseOutcome_next {s s' : State} (h : s.erase = s'.erase) : eraseOutcome (.next s) = eraseOutcome (.next s') :=
  congrArg Host.Outcome.next h

theorem exists_next_of_eraseOutcome {t : State} {o : Host.Outcome State Fault Refusal}
    (h : eraseOutcome (.next t) = eraseOutcome o) : ∃ t', o = .next t' ∧ t.erase = t'.erase := by
  cases o with
  | next t' => exact ⟨t', rfl, Host.Outcome.next.inj h⟩
  | fault r => exact nomatch h
  | refused r => exact nomatch h

/-- An operation that commutes with the erasure keeps the agreement of two states. -/
theorem erase_congr {f : State → State} (hf : ∀ s, (f s).erase = f s.erase) {s s' : State} (he : s.erase = s'.erase) :
    (f s).erase = (f s').erase := by
  rw [hf, he, hf]

theorem execDl_erase_congr {s s' : State} (he : s.erase = s'.erase) (j : BitVec 1) (addr : Addr) :
    eraseOutcome (execDl j addr s) = eraseOutcome (execDl j addr s') := by
  have hres : s.resolve addr = s'.resolve addr := (congrArg (State.resolve · addr) he :)
  have hdepth : s.depthLeft = s'.depthLeft := (congrArg State.depthLeft he :)
  refine eraseOutcome_next ?_
  rw [hres, hdepth]
  cases s'.resolve addr with
  | none => exact erase_congr (State.erase_skipList · j) he
  | some base =>
    simp only
    split
    · exact erase_congr (State.erase_callList · j base) he
    · exact erase_congr (State.erase_skipList · j) he

theorem execMtx_erase_congr {s s' : State} (he : s.erase = s'.erase) (j l p : BitVec 1) (addr : Addr) :
    eraseOutcome (execMtx j l p addr s) = eraseOutcome (execMtx j l p addr s') := by
  have hres : s.resolve addr = s'.resolve addr := (congrArg (State.resolve · addr) he :)
  have hmem : s.mem = s'.mem := (congrArg State.mem he :)
  refine eraseOutcome_next ?_
  rw [hres, hmem]
  cases s'.resolve addr with
  | none => exact he
  | some loc => exact congrArg State.recompose (erase_congr (State.erase_loadMatrix · j l _) he)

theorem execLoadtlut_erase_congr {s s' : State} (he : s.erase = s'.erase) (tile : BitVec 3) (cnt : BitVec 10) :
    eraseOutcome (execLoadtlut tile cnt s) = eraseOutcome (execLoadtlut tile cnt s') := by
  have hres : s.resolve s.timg.addr = s'.resolve s'.timg.addr :=
    (congrArg (fun r : State => r.resolve r.timg.addr) he :)
  refine eraseOutcome_next ?_
  rw [hres]
  cases s'.resolve s'.timg.addr with
  | none => exact he
  | some loc =>
    exact congrArg (fun r : State =>
      { r with tlut := (List.range (tlutCount cnt)).foldl (loadTlutEntry r.mem loc) r.tlut }) he

theorem execFillrect_erase_congr {s s' : State} (he : s.erase = s'.erase) (lrx lry ulx uly : BitVec 12) :
    eraseOutcome (execFillrect lrx lry ulx uly s) = eraseOutcome (execFillrect lrx lry ulx uly s') := by
  have hfill : s.fill = s'.fill := (congrArg State.fill he :)
  refine eraseOutcome_next ?_
  rw [hfill]
  split
  · exact he
  · exact erase_congr (fun r => r.erase_emitRect _ _ _ _ _ _ _ _ _ _) he

theorem execSettilesize_erase_congr {s s' : State} (he : s.erase = s'.erase) (uls ult : BitVec 12) (tile : BitVec 3)
    (lrs lrt : BitVec 12) :
    eraseOutcome (execSettilesize uls ult tile lrs lrt s) = eraseOutcome (execSettilesize uls ult tile lrs lrt s') := by
  have hb := State.setBounds_erase_congr he tile.toFin uls ult lrs lrt
  unfold execSettilesize
  generalize s.setBounds tile.toFin uls ult lrs lrt = r at *
  generalize s'.setBounds tile.toFin uls ult lrs lrt = r' at *
  have htile : (r.tileAt tile.toFin).erase = (r'.tileAt tile.toFin).erase := by
    rw [← State.erase_tileAt, hb, State.erase_tileAt]
  have hsrc : (r.tileAt tile.toFin).src = (r'.tileAt tile.toFin).src := (congrArg Tile.src htile :)
  refine eraseOutcome_next ?_
  rw [hsrc]
  split
  · exact erase_congr (State.erase_realize · _) hb
  · exact erase_congr (State.erase_bindSource · _) hb

/-- With a list active, every command does the same on two states that agree on what is read. -/
theorem exec_erase_congr {s s' : State} (he : s.erase = s'.erase) (hs : s.stack ≠ []) (i : Instr) :
    eraseOutcome (exec i s) = eraseOutcome (exec i s') := by
  cases i
  case dl j addr => exact execDl_erase_congr he j addr
  case mtx j l p addr => exact execMtx_erase_congr he j l p addr
  case loadtlut tile cnt => exact execLoadtlut_erase_congr he tile cnt
  case fillrect lrx lry ulx uly => exact execFillrect_erase_congr he lrx lry ulx uly
  case settilesize uls ult tile lrs lrt => exact execSettilesize_erase_congr he uls ult tile lrs lrt
  all_goals refine eraseOutcome_next ?_
  case vtx n e addr =>
    exact erase_congr (erase_foldl _ (fun r i => r.erase_loadVertex _ addr i) (List.range n.toNat)) he
  case tri1 => exact erase_congr (State.erase_emitTri · _ _ _) he
  case tri2 | quad =>
    exact erase_congr (State.erase_emitTri · _ _ _) (erase_congr (State.erase_emitTri · _ _ _) he)
  case texrect | texrectm => exact State.texrect_erase_congr he hs _ _ _ _ _
  case loadtile | loadblock => exact erase_congr (State.erase_bindSource · _) he
  case settile fmt siz line tmem tile palette cmt maskt shiftt cms masks shifts =>
    have htile : (s.tileAt tile.toFin).erase = (s'.tileAt tile.toFin).erase := by
      rw [← State.erase_tileAt, he, State.erase_tileAt]
    exact State.setTile_erase_congr he _
      (congrArg (fun d : Tile => { d with fmt := fmt, siz := siz, palette := palette }) htile)
  case texture scS scT => exact congrArg (fun r : State => { r with tscaleS := scS, tscaleT := scT }) he
  case popmtx => exact congrArg (fun r : State => ({ r with mv := identity } : State).recompose) he
  case endList => exact congrArg State.returnFromList he
  case setfillcolor fill => exact congrArg (fun r : State => { r with fill := fill }) he
  case settimg fmt siz wm1 addr => exact congrArg (fun r : State => { r with timg := ⟨addr, 0#3, 0#2, 1#13⟩ }) he
  all_goals exact he

theorem State.frameReset_erase_congr {s s' : State} (he : s.erase = s'.erase) :
    s.frameReset.erase = s'.frameReset.erase := by
  have hheld : s.held = s'.held := by rw [← State.erase_held, he, State.erase_held]
  rw [State.frameReset_eq, State.frameReset_eq, hheld]
  exact congrArg (fun r : State => ({ r with
    tile := (Vector.replicate Config.nTiles Tile.zero).map Tile.erase
    out := r.out ++ s'.held.map Event.releaseTexture
    legacyTex := none
    mv := identity
    pj := identity
    mvp := identity
    tscaleS := Config.tscaleFull
    tscaleT := Config.tscaleFull
    vc := Vector.ofFn fun i => openVertex r.frames i
    timg := { openTimg r.frames with fmt := 0#3, siz := 0#2, stride := 1#13 }
    tlut := Vector.ofFn fun k => (Config.unspecified r.frames (.tlut k)).setWidth 16
    fill := Config.unspecified r.frames .fill
    frames := r.frames + 1 } : State)) he

theorem State.startPass_erase_congr {s s' : State} (he : s.erase = s'.erase) (p : PassRequest) :
    (s.startPass p).erase = (s'.startPass p).erase := by
  have hreset := State.frameReset_erase_congr he
  have hres : ∀ r : State, ({ r with resolver := p.resolver, mem := p.mem } : State).resolve p.top =
      if p.top = 0#32 then none else resolveIn p.resolver p.top := fun _ => rfl
  simp only [State.startPass, hres]
  generalize s.frameReset = r at *
  generalize s'.frameReset = r' at *
  generalize (if p.top = 0#32 then none else resolveIn p.resolver p.top) = ref
  cases ref with
  | none => exact congrArg (fun r : State => { r with resolver := p.resolver, mem := p.mem, stack := [] }) hreset
  | some base =>
    exact congrArg (fun r : State =>
      { r with resolver := p.resolver, mem := p.mem, stack := [⟨base, 0, false⟩] }) hreset

theorem State.betweenPasses_erase_congr {s s' : State} (he : s.erase = s'.erase) :
    s.betweenPasses.erase = s'.betweenPasses.erase := by
  have hreq : s.requests = s'.requests := (congrArg State.requests he :)
  unfold State.betweenPasses
  rw [hreq]
  cases s'.requests with
  | nil => exact he
  | cons p rest => exact State.startPass_erase_congr (congrArg (fun r : State => { r with requests := rest }) he) p

theorem step_erase_congr {s s' : State} (he : s.erase = s'.erase) : eraseOutcome (step s) = eraseOutcome (step s') := by
  have hstack : s.stack = s'.stack := (congrArg State.stack he :)
  have hparams : s.params = s'.params := (congrArg State.params he :)
  have hfetch : ∀ f, s.fetch f = s'.fetch f := fun f => (congrArg (State.fetch · f) he :)
  have hadvance := erase_congr (State.erase_advance · 1) he
  unfold step
  cases h : s.stack with
  | nil =>
    rw [← hstack, h]
    exact eraseOutcome_next (State.betweenPasses_erase_congr he)
  | cons f fs =>
    have hne : (s.advance 1).stack ≠ [] := by simp [s.advance_cons 1 f fs h]
    rw [← hstack, h]
    simp only [hparams, hfetch]
    split
    · exact eraseOutcome_next (congrArg State.returnFromList he)
    · split
      · exact exec_erase_congr hadvance hne _
      · exact eraseOutcome_next hadvance

end Sys2Proof.Machine
end

section
/-! SUPPORT. The buffer of a realization as a row of rows of texels (R185, R188), and SETTILESIZE on a bound tile with
the whole next state (R180, R185 to R187). -/

namespace Sys2Proof.Machine

/-! Blocks of equal length -/

theorem length_flatMap_range {α : Type} (f : Nat → List α) (n : Nat) (hf : ∀ i, (f i).length = n) (k : Nat) :
    ((List.range k).flatMap f).length = n * k := by
  induction k with
  | zero => rfl
  | succ k ih => rw [List.range_succ, List.flatMap_append, List.length_append, ih, List.flatMap_singleton, hf]; ring

/-- Block `i` of blocks of equal length starts at `n * i`. -/
theorem drop_flatMap_range {α : Type} (f : Nat → List α) (n : Nat) (hf : ∀ i, (f i).length = n) {i k : Nat}
    (hi : i < k) : ∃ rest, ((List.range k).flatMap f).drop (n * i) = f i ++ rest := by
  induction k with
  | zero => exact absurd hi (Nat.not_lt_zero i)
  | succ k ih =>
    have hlen := length_flatMap_range f n hf k
    rw [List.range_succ, List.flatMap_append, List.flatMap_singleton]
    rcases Nat.lt_succ_iff_lt_or_eq.mp hi with hlt | rfl
    · obtain ⟨rest, hrest⟩ := ih hlt
      refine ⟨rest ++ f k, ?_⟩
      rw [List.drop_append_of_le_length (hlen ▸ Nat.mul_le_mul_left n hlt.le), hrest, List.append_assoc]
    · exact ⟨[], by rw [← hlen, List.drop_left, List.append_nil]⟩

theorem length_realizeRow (m : Memory) (tlut : Vector (BitVec 16) Config.tlutSize) (d : Tile) (loc w r : Nat) :
    (realizeRow m tlut d loc w r).length = 4 * w :=
  length_flatMap_range _ 4 (fun _ => rfl) w

/-! SETTILESIZE on a bound tile -/

/-- The handles held after `Release(t)` are those of the other tiles (R186). -/
theorem State.mem_held_release (s : State) (t : Fin 8) (h : Handle) :
    h ∈ (s.release t).held ↔ ∃ k, k ≠ t ∧ (s.tileAt k).tex = some h := by
  rw [State.mem_held]
  refine exists_congr fun k => ?_
  rw [State.tileAt_release]
  by_cases hk : t = k
  · simp [hk]
  · simp [hk, Ne.symm hk]

/-- Tile `t` after SETTILESIZE on it when it has a source (R180, R185). -/
def rebuiltTile (d : Tile) (uls ult lrs lrt : BitVec 12) (tex : Option Handle) : Tile :=
  { d with
    uls := uls, ult := ult, lrs := lrs, lrt := lrt
    width := extent uls lrs, height := extent ult lrt, tex := tex }

/-- SETTILESIZE on a bound tile up to its creation: bounds, size, and the texture held released (R180, R186). -/
theorem State.setBounds_release_eq (s : State) (t : Fin 8) (uls ult lrs lrt : BitVec 12) :
    (s.setBounds t uls ult lrs lrt).release t =
      { s with
        tile := s.tile.set t (rebuiltTile (s.tileAt t) uls ult lrs lrt none)
        legacyTex := if t = 0 ∧ (s.tileAt t).tex ≠ none then none else s.legacyTex
        out := s.out ++ (s.tileAt t).tex.toList.map Event.releaseTexture } := by
  rw [State.release_eq, State.setBounds, State.tileAt_setTile_same, State.setTile_tile, Vector.set_set]
  rfl

theorem State.tileAt_setBounds (s : State) (t : Fin 8) (uls ult lrs lrt : BitVec 12) :
    (s.setBounds t uls ult lrs lrt).tileAt t = rebuiltTile (s.tileAt t) uls ult lrs lrt (s.tileAt t).tex :=
  State.tileAt_setTile_same _ _ _

/-- A size below 1 builds nothing (R185). -/
theorem State.setBounds_realize_of_small (s : State) (t : Fin 8) (uls ult lrs lrt : BitVec 12)
    (hsmall : extent uls lrs < 1 ∨ extent ult lrt < 1) :
    (s.setBounds t uls ult lrs lrt).realize t = (s.setBounds t uls ult lrs lrt).release t := by
  rcases (s.setBounds t uls ult lrs lrt).realize_cases t with ⟨he, -⟩ | ⟨_, -, hw, hh, -⟩
  · exact he
  · rw [s.tileAt_setBounds] at hw hh
    exact absurd hsmall (not_or.mpr ⟨Int.not_lt.mpr hw, Int.not_lt.mpr hh⟩)

/-- A positive size builds one texture from the tile's source (R185). -/
theorem State.setBounds_realize_of_pos (s : State) (t : Fin 8) (uls ult lrs lrt : BitVec 12) {loc : Nat}
    (hsrc : (s.tileAt t).src = some loc) (hw : 1 ≤ extent uls lrs) (hh : 1 ≤ extent ult lrt) :
    (s.setBounds t uls ult lrs lrt).realize t =
      ((s.setBounds t uls ult lrs lrt).release t).createTexture t
        (realizeBuffer s.mem s.tlut (rebuiltTile (s.tileAt t) uls ult lrs lrt none) loc) := by
  rcases (s.setBounds t uls ult lrs lrt).realize_cases t with ⟨-, hbad⟩ | ⟨loc', hloc, -, -, he⟩
  · rw [s.tileAt_setBounds] at hbad
    rcases hbad with hbad | hbad | hbad
    · exact nomatch hsrc.symm.trans hbad
    · exact absurd hbad (Int.not_lt.mpr hw)
    · exact absurd hbad (Int.not_lt.mpr hh)
  · rw [s.tileAt_setBounds] at hloc he
    obtain rfl : loc = loc' := Option.some.inj (hsrc.symm.trans hloc)
    exact he

/-- The creation's part of SETTILESIZE on a bound tile, with the whole next state (R180, R185, R187). -/
theorem State.setBounds_createTexture_eq (s : State) (t : Fin 8) (uls ult lrs lrt : BitVec 12) (buf : List Byte) :
    ((s.setBounds t uls ult lrs lrt).release t).createTexture t buf =
      { s with
        tile := s.tile.set t (rebuiltTile (s.tileAt t) uls ult lrs lrt
          (some ((s.setBounds t uls ult lrs lrt).release t).nextHandle))
        legacyTex :=
          if t = 0 then some ((s.setBounds t uls ult lrs lrt).release t).nextHandle else s.legacyTex
        out := s.out ++ (s.tileAt t).tex.toList.map Event.releaseTexture ++
          [.createTexture buf (extent uls lrs) (extent ult lrt)
            ((s.setBounds t uls ult lrs lrt).release t).nextHandle]
        answers := s.answers.tail
        draws := s.draws + 1 } := by
  have htile : ((s.setBounds t uls ult lrs lrt).release t).tileAt t =
      rebuiltTile (s.tileAt t) uls ult lrs lrt none := by
    rw [State.tileAt_release, if_pos rfl, s.tileAt_setBounds]
    rfl
  have hlegacy : ∀ x : Option Handle, (if t = 0 then x else
      if t = 0 ∧ (s.tileAt t).tex ≠ none then none else s.legacyTex) = if t = 0 then x else s.legacyTex :=
    fun x => ite_congr rfl (fun _ => rfl) fun h0 => if_neg fun hc => h0 hc.1
  rw [State.createTexture_eq, htile]
  generalize State.nextHandle _ = hd
  simp only [s.setBounds_release_eq, Vector.set_set, hlegacy]
  rfl

/-- Only the other tiles' handles are held when the texture is created (R51). -/
theorem State.mem_held_setBounds_release (s : State) (t : Fin 8) (uls ult lrs lrt : BitVec 12) (h : Handle) :
    h ∈ ((s.setBounds t uls ult lrs lrt).release t).held ↔ ∃ k, k ≠ t ∧ (s.tileAt k).tex = some h := by
  rw [State.mem_held_release]
  refine exists_congr fun k => and_congr_right fun hne => ?_
  rw [State.setBounds, State.tileAt_setTile_other _ _ _ _ hne.symm]

end Sys2Proof.Machine
end

section
/-! The statements of the family of spec/10_state.md, settled. -/

namespace Sys2Proof.Machine

/-- Settles O18: each clause is kept by the cursor's move, by every command and by the start of a pass. -/
theorem everyStepKeepsTheInvariant : Obligations.EveryStepKeepsTheInvariant := fun _ _ hs hstep =>
  step_keeps (P := State.Inv) (fun _ h => h.advance 1) (fun _ _ _ => exec_keeps_inv) (fun _ h => h.betweenPasses)
    hstep hs

/-- Settles O23: the step commutes with the erasure, operation by operation. -/
theorem unreadRegistersHaveNoInfluence : Obligations.UnreadRegistersHaveNoInfluence := by
  intro s s' t he hstep
  have hout := step_erase_congr he
  rw [hstep] at hout
  exact exists_next_of_eraseOutcome hout

/-- Settles O11: a list is entered only above at most 32 frames. -/
theorem stackNeverHoldsMoreThan33Frames : Obligations.StackNeverHoldsMoreThan33Frames :=
  ⟨Nat.zero_le 33, fun _ _ hs hstep =>
    step_keeps (P := fun s => s.stack.length ≤ 33) (fun s h => by rwa [s.advance_stack_length])
      (fun _ _ _ => exec_stack_length_le) State.betweenPasses_stack_length_le hstep hs⟩

/-- Settles O17: every operation appends events to the trace or leaves it. -/
theorem traceOnlyGrows : Obligations.TraceOnlyGrows := by
  intro s t hstep
  have hprefix : s.out <+: t.out :=
    step_keeps (P := fun r => s.out <+: r.out) (fun r h => by rwa [r.advance_out])
      (fun _ _ _ hexec h => h.trans (exec_out_prefix hexec))
      (fun r h => h.trans r.betweenPasses_out_prefix) hstep List.prefix_rfl
  obtain ⟨es, hes⟩ := hprefix
  exact ⟨es, hes.symm⟩

/-- Settles O20: MTX and POPMTX recompose, the frame reset leaves identities, and no other operation writes a matrix. -/
theorem mvpIsAlwaysTheProduct : Obligations.MvpIsAlwaysTheProduct :=
  ⟨compose_identity.symm, compose_identity, fun _ => ⟨rfl, rfl, rfl⟩,
    fun _ _ hs hstep =>
      step_keeps (P := fun s => s.mvp = compose s.mv s.pj) (fun s h => by simpa using h) (fun _ _ _ => exec_mvp_eq)
        State.betweenPasses_mvp_eq hstep hs,
    fun _ _ _ => exec_matrices⟩

/-- Settles O21: the frame of each command lists what it may write, and the opcode lists name it. -/
theorem registersAreWrittenOnlyByTheirCommands : Obligations.RegistersAreWrittenOnlyByTheirCommands := by
  intro i s t h
  have hf := exec_frame h
  cases i
  all_goals
    simp only [commandFrame, State.sameButTextures] at hf
    rw [hf]
    simp [Instr.opcode, textureWriters, emitters, tileWriters]

/-- Settles O24: an answer that is held is replaced by one above every handle held. -/
theorem answeredHandleIsHeldByNoTile : Obligations.AnsweredHandleIsHeldByNoTile := State.nextHandle_not_mem

/-- Settles O35: the identity is neutral on the left of a projection of plain elements. -/
theorem popmtxLeavesTheProjection : Obligations.PopmtxLeavesTheProjection := by
  intro s
  refine ⟨rfl, fun hpj => ?_⟩
  have hprod := matMul_identity_left s.pj hpj
  calc exec .popmtx s = .next { s with mv := identity, mvp := matMul identity s.pj } := rfl
    _ = .next { s with mv := identity, mvp := s.pj } := by rw [hprod]

/-- Settles O43: bounds and release first, and a creation for exactly the positive sizes. -/
theorem settilesizeOnABoundTileRebuildsIt : Obligations.SettilesizeOnABoundTileRebuildsIt := by
  intro s uls ult lrs lrt tile k loc w h hk hsrc hw hh rebuilt released
  obtain rfl : tile.toFin = k := Fin.ext hk.symm
  obtain rfl : w = extent uls lrs := hw
  obtain rfl : h = extent ult lrt := hh
  have hrel := s.setBounds_release_eq tile.toFin uls ult lrs lrt
  have hexec : exec (.settilesize uls ult tile lrs lrt) s =
      .next ((s.setBounds tile.toFin uls ult lrs lrt).realize tile.toFin) := by
    rcases execSettilesize_cases uls ult tile lrs lrt s with ⟨-, he⟩ | ⟨hnone, -⟩
    · exact he
    · exact nomatch hsrc.symm.trans hnone
  refine ⟨fun hsmall => ?_, fun hw1 hh1 => ?_⟩
  · rw [hexec, s.setBounds_realize_of_small _ _ _ _ _ hsmall, hrel]
    rfl
  · refine ⟨((s.setBounds tile.toFin uls ult lrs lrt).release tile.toFin).nextHandle, fun k' hne hheld => ?_,
      fun a as hans hfree => ?_, ?_⟩
    · exact State.nextHandle_not_mem _ ((s.mem_held_setBounds_release _ _ _ _ _ _).mpr ⟨k', hne, hheld⟩)
    · refine State.nextHandle_cons _ a as (by rw [hrel]; exact hans) fun hmem => ?_
      obtain ⟨k', hne, hheld⟩ := (s.mem_held_setBounds_release _ _ _ _ _ _).mp hmem
      exact hfree k' hne hheld
    · rw [hexec, s.setBounds_realize_of_pos _ _ _ _ _ hsrc hw1 hh1, s.setBounds_createTexture_eq]
      rfl

/-- Settles O44: a row is a block of the buffer and a texel a block of its row. -/
theorem realizedBufferIsRowMajor : Obligations.RealizedBufferIsRowMajor := by
  intro m tlut d loc w h hw hh
  have hbuf : realizeBuffer m tlut d loc = (List.range h).flatMap (realizeRow m tlut d loc w) := by
    rw [realizeBuffer, hw, hh, Int.toNat_natCast, Int.toNat_natCast]
  have hrow := length_realizeRow m tlut d loc w
  refine ⟨by rw [hbuf, length_flatMap_range _ _ hrow, Nat.mul_assoc], fun r c hr hc => ?_⟩
  obtain ⟨below, hbelow⟩ := drop_flatMap_range (realizeRow m tlut d loc w) (4 * w) hrow hr
  obtain ⟨right, hright⟩ := drop_flatMap_range
    (fun c => rgbaBytes (decodeTexel m tlut d.fmt d.siz d.palette loc (r * w + c))) 4 (fun _ => rfl) hc
  have hfit : 4 * c ≤ (realizeRow m tlut d loc w r).length := by rw [hrow]; omega
  rw [hbuf, show 4 * (r * w + c) = 4 * w * r + 4 * c by ring, ← List.drop_drop, hbelow,
    List.drop_append_of_le_length hfit, realizeRow, hright, List.append_assoc]
  exact List.take_left' rfl

/-- Settles O25: the reset state's fields, with the identity read element by element. -/
theorem resetHoldsTheStatedValues : Obligations.ResetHoldsTheStatedValues := by
  refine ⟨fun i j => ⟨identity_getElem i j, identity_getElem i j, identity_getElem i j⟩, rfl, rfl, rfl, rfl,
    fun k => ?_, rfl, rfl⟩
  simp [State.tileAt, State.reset]

/-- Settles O32: the target written by `J`, as `L` says, and `MVP` recomposed. -/
theorem mtxLoadsOrMultipliesItsTarget : Obligations.MtxLoadsOrMultipliesItsTarget := by
  refine ⟨matMul_getElem, fun _ _ => rfl, fun s p addr => ⟨fun hres j l => ?_, fun loc hres => ?_⟩⟩
  · rcases execMtx_cases j l p addr s with ⟨-, he⟩ | ⟨loc, hloc, -⟩
    · exact he
    · exact nomatch hres.symm.trans hloc
  · have hexec : ∀ j l, exec (.mtx j l p addr) s = .next (s.loadMatrix j l (fromWire s.mem loc)).recompose := by
      intro j l
      rcases execMtx_cases j l p addr s with ⟨hnone, -⟩ | ⟨loc', hloc, he⟩
      · exact nomatch hres.symm.trans hnone
      · obtain rfl : loc = loc' := Option.some.inj (hres.symm.trans hloc)
        exact he
    exact ⟨hexec 0#1 1#1, hexec 0#1 0#1, hexec 1#1 1#1, hexec 1#1 0#1⟩

end Sys2Proof.Machine
end

section
/-! SUPPORT. Reads of memory by the walker and the loads (R64, R66, R70, R141, R145, R183): what a running step leaves of
the pass's inputs, where the planes of a wire matrix lie, and what a run of loads leaves in each entry of the palette and
of the vertex cache. -/

namespace Sys2Proof.Machine

/-! The step -/

/-- A step below the cap runs the command fetched, the cursor past it (R121). -/
theorem step_of_fetch_ok {s : State} {f : Frame} {fs : List Frame} {i : Instr} (hstack : s.stack = f :: fs)
    (hcursor : f.cursor < s.params.iterCap) (hfetch : s.fetch f = .ok i) : step s = exec i (s.advance 1) := by
  simp only [step, hstack, if_neg (Nat.not_le.mpr hcursor), hfetch]

/-- A step with a list active leaves the inputs of the pass as they are (R70, R75). -/
theorem step_inputs {s t : State} (hs : s.stack ≠ []) (h : step s = .next t) :
    t.mem = s.mem ∧ t.resolver = s.resolver ∧ t.params = s.params ∧ t.requests = s.requests ∧
      t.frames = s.frames := by
  rcases step_cases s with ⟨hnil, -⟩ | ⟨_, _, -, -, he⟩ | ⟨_, _, i, -, -, -, he⟩ | ⟨_, _, _, -, -, -, he⟩
  · exact absurd hnil hs
  · exact exec_inputs (i := .endList) (he.symm.trans h)
  · simpa using exec_inputs (he.symm.trans h)
  · obtain rfl := Host.Outcome.next.inj (he.symm.trans h)
    simp

/-- Two states with the same map resolve alike. -/
theorem State.resolve_congr {s t : State} (h : t.resolver = s.resolver) (a : Addr) : t.resolve a = s.resolve a := by
  rw [State.resolve, State.resolve, h]

/-! Wire matrices -/

theorem fromWire_getElem (m : Memory) (loc : Nat) (i j : Fin 4) :
    (fromWire m loc)[i][j] =
      wireElement (Memory.read2 m (loc + 2 * (4 * i + j))) (Memory.read2 m (loc + 32 + 2 * (4 * i + j))) := by
  simp [fromWire, Mat.of]

/-! LOADTLUT -/

theorem loadTlutEntry_getElem (m : Memory) (loc : Nat) (tlut : Vector (BitVec 16) Config.tlutSize) (j : Nat)
    (k : Fin 256) :
    (loadTlutEntry m loc tlut j)[k] = if j = k then Memory.read2 m (loc + 2 * k) else tlut[k] := by
  simp only [loadTlutEntry, Fin.getElem_fin, Vector.getElem_setIfInBounds]
  split
  · next hj => rw [hj]
  · rfl

/-- A load of `n` entries from index 0, entry by entry (R183). -/
theorem loadTlut_getElem (m : Memory) (loc : Nat) (tlut : Vector (BitVec 16) Config.tlutSize) (n : Nat) (k : Fin 256) :
    ((List.range n).foldl (loadTlutEntry m loc) tlut)[k] =
      if k < n then Memory.read2 m (loc + 2 * k) else tlut[k] := by
  induction n with
  | zero => rfl
  | succ n ih =>
    rw [List.range_succ, List.foldl_append, List.foldl_cons, List.foldl_nil, loadTlutEntry_getElem, ih]
    grind

theorem lt_tlutCount_iff (cnt : BitVec 10) (k : Fin 256) : k < tlutCount cnt ↔ k.val ≤ cnt.toNat := by
  have hk := k.isLt
  simp only [tlutCount, Config.tlutSize]
  omega

theorem execLoadtlut_cases (tile : BitVec 3) (cnt : BitVec 10) (s : State) :
    (s.resolve s.timg.addr = none ∧ execLoadtlut tile cnt s = .next s) ∨
    ∃ loc, s.resolve s.timg.addr = some loc ∧ execLoadtlut tile cnt s =
      .next { s with tlut := (List.range (tlutCount cnt)).foldl (loadTlutEntry s.mem loc) s.tlut } := by
  unfold execLoadtlut
  cases s.resolve s.timg.addr with
  | none => exact .inl ⟨rfl, rfl⟩
  | some loc => exact .inr ⟨loc, rfl, rfl⟩

/-! VTX -/

/-- One source vertex writes the cache alone, and there only the entry it names, and only when its address resolves
(R145, R151). -/
theorem State.loadVertex_entry (s : State) (base : Int) (addr : Addr) (i : Nat) :
    ∃ vc, s.loadVertex base addr i = { s with vc := vc } ∧ ∀ idx : Fin 64,
      (∀ loc, base + i = idx → s.resolve (vertexAddr addr i) = some loc →
        vc[idx] = transformVertex s.mvp s.tscaleS s.tscaleT (sourceVertex s.mem loc)) ∧
      ((base + i = idx → s.resolve (vertexAddr addr i) = none) → vc[idx] = s.vc[idx]) := by
  rcases s.loadVertex_cases base addr i with ⟨he, hskip⟩ | ⟨loc, hlow, hhigh, hres, he⟩ <;> rw [he]
  · refine ⟨s.vc, rfl, fun idx => ⟨fun loc hidx hloc => ?_, fun _ => rfl⟩⟩
    have hlt := idx.isLt
    rcases hskip with hneg | hbig | hnone
    · omega
    · omega
    · exact nomatch hloc.symm.trans hnone
  · refine ⟨_, rfl, fun idx => ⟨fun loc' hidx hloc => ?_, fun hnone => ?_⟩⟩
    · obtain rfl : loc = loc' := Option.some.inj (hres.symm.trans hloc)
      have hnat : (base + i).toNat = idx := by omega
      simp [hnat]
    · have hne : base + i ≠ idx := fun hidx => nomatch hres.symm.trans (hnone hidx)
      have hnat : (base + i).toNat ≠ idx := by omega
      simp [hnat]

/-- A run of source vertices leaves an entry that none of them loads (R145, R151). -/
theorem State.loadVertices_unchanged (s : State) (base : Int) (addr : Addr) (is : List Nat) (idx : Fin 64)
    (h : ∀ i ∈ is, base + i = idx → s.resolve (vertexAddr addr i) = none) :
    (is.foldl (fun s i => s.loadVertex base addr i) s).vc[idx] = s.vc[idx] := by
  induction is generalizing s with
  | nil => rfl
  | cons i is ih =>
    obtain ⟨vc, he, hvc⟩ := s.loadVertex_entry base addr i
    rw [List.foldl_cons, he, ih { s with vc := vc } fun j hj => h j (List.mem_cons_of_mem i hj)]
    exact (hvc idx).2 (h i List.mem_cons_self)

/-- A run of source vertices leaves in an entry the vertex that names it: no two of them name the same (R145). -/
theorem State.loadVertices_loaded (s : State) (base : Int) (addr : Addr) (is : List Nat) (idx : Fin 64) {i loc : Nat}
    (hi : i ∈ is) (hidx : base + i = idx) (hres : s.resolve (vertexAddr addr i) = some loc) :
    (is.foldl (fun s i => s.loadVertex base addr i) s).vc[idx] =
      transformVertex s.mvp s.tscaleS s.tscaleT (sourceVertex s.mem loc) := by
  induction is generalizing s with
  | nil => exact nomatch hi
  | cons j is ih =>
    obtain ⟨vc, he, hvc⟩ := s.loadVertex_entry base addr j
    rw [List.foldl_cons, he]
    by_cases hlater : i ∈ is
    · exact ih { s with vc := vc } hlater hres
    · obtain rfl : i = j := (List.mem_cons.mp hi).resolve_right hlater
      have hother : ∀ k ∈ is, base + k = idx → State.resolve { s with vc := vc } (vertexAddr addr k) = none := by
        intro k hk hkidx
        obtain rfl : k = i := by omega
        exact absurd hk hlater
      rw [State.loadVertices_unchanged _ base addr is idx hother]
      exact (hvc idx).1 loc hidx hres

end Sys2Proof.Machine
end

section
/-! The statements of the family of spec/20_memory.md, settled. -/

namespace Sys2Proof.Machine

/-- Settles O6: the 8 bytes at the cursor are the entry the step fetches. -/
theorem stepRunsTheDecodedCommand : Obligations.StepRunsTheDecodedCommand := by
  intro s f fs i hstack hcursor hdecode
  rw [← s.advance_cons 1 f fs hstack]
  exact step_of_fetch_ok hstack hcursor hdecode

/-- Settles O16: memory and the resolver are among the inputs no running step and no command writes. -/
theorem memoryAndResolverAreConstantDuringAPass : Obligations.MemoryAndResolverAreConstantDuringAPass := by
  intro s t h
  have hinputs : t.mem = s.mem ∧ t.resolver = s.resolver ∧ t.params = s.params ∧ t.requests = s.requests ∧
      t.frames = s.frames := by
    rcases h with ⟨hs, hstep⟩ | ⟨i, hexec⟩
    · exact step_inputs hs hstep
    · exact exec_inputs hexec
  have ⟨hmem, hresolver, _⟩ := hinputs
  exact ⟨fun a => by rw [hmem], State.resolve_congr hresolver, hinputs⟩

/-- Settles O33: half `4i + j` of a plane lies `8i + 2j` bytes into it. -/
theorem wireMatrixPlanesAreReadRowMajor : Obligations.WireMatrixPlanesAreReadRowMajor := by
  intro m loc i j
  have hplane : ∀ start : Nat, start + 2 * (4 * i + j) = start + 8 * i + 2 * j := fun start => by omega
  refine ⟨_, _, fromWire_getElem m loc i j, ?_, ?_⟩ <;> rw [Memory.read2_toNat, hplane]

/-- Settles O45: a load of `n` entries from index 0, for `n` the count of LOADTLUT. -/
theorem loadtlutCopiesEntriesFromZero : Obligations.LoadtlutCopiesEntriesFromZero := by
  intro s tile cnt
  rcases execLoadtlut_cases tile cnt s with ⟨hnone, he⟩ | ⟨loc, hsome, he⟩
  · exact ⟨fun _ => he, fun loc hloc => nomatch hnone.symm.trans hloc⟩
  · refine ⟨fun hnone => (nomatch hsome.symm.trans hnone), fun loc' hloc => ⟨_, he, rfl, fun k => ?_⟩⟩
    obtain rfl : loc = loc' := Option.some.inj (hsome.symm.trans hloc)
    refine ⟨fun hk => ?_, fun hk => ?_⟩ <;> rw [loadTlut_getElem]
    · rw [if_pos ((lt_tlutCount_iff cnt k).mpr hk), Memory.read2_toNat]
    · rw [if_neg (mt (lt_tlutCount_iff cnt k).mp (Nat.not_le.mpr hk))]

/-- Settles O37: distinct source vertices name distinct entries, so each keeps what its own vertex loads. -/
theorem vtxLoadsEachEntryInRange : Obligations.VtxLoadsEachEntryInRange := by
  intro s n e addr half comp tex
  refine ⟨_, rfl, ?_, fun idx => ⟨fun i loc hi hidx hres => ?_, fun hnone => ?_⟩⟩
  · obtain ⟨vc, hvc⟩ := s.loadVertices_frame (vtxBase n e) addr (List.range n.toNat)
    rw [hvc]
  · exact ⟨_, _, _, _, _, Memory.read2_toNat _ _, Memory.read2_toNat _ _, Memory.read2_toNat _ _,
      Memory.read2_toNat _ _, Memory.read2_toNat _ _,
      s.loadVertices_loaded (vtxBase n e) addr _ idx (List.mem_range.mpr hi) hidx hres⟩
  · exact s.loadVertices_unchanged (vtxBase n e) addr _ idx fun i hi => hnone i (List.mem_range.mp hi)

end Sys2Proof.Machine
end

section
/-! SUPPORT. The encoder and the decoder against each other: each undoes the other, up to the ignored bits (R97 to R109,
R111, R114). -/

namespace Sys2Proof

/-! The opcode byte (R91, R96) -/

theorem Opcode.ofCode_eq_some_iff (c : Byte) (o : Opcode) : Opcode.ofCode c = some o ↔ o.code = c := by
  constructor
  · intro h
    simpa using List.find?_some (p := fun o => Opcode.code o == c) h
  · rintro rfl
    exact Opcode.ofCode_code o

theorem mem_assignedBytes_iff {c : Byte} : c ∈ Machine.assignedBytes ↔ ∃ o : Opcode, o.code = c := by
  have hbytes : Machine.assignedBytes = Opcode.all.map Opcode.code := rfl
  have hall : ∀ o : Opcode, o ∈ Opcode.all := fun o => by cases o <;> decide
  simp [hbytes, hall]

theorem Opcode.ofCode_eq_none_iff (c : Byte) : Opcode.ofCode c = none ↔ c ∉ Machine.assignedBytes := by
  rw [Option.eq_none_iff_forall_ne_some, mem_assignedBytes_iff, not_exists]
  exact forall_congr' fun o => not_congr (Opcode.ofCode_eq_some_iff c o)

@[simp] theorem decodeFields_opcode (o : Opcode) (w0 w1 : Word) : (decodeFields o w0 w1).opcode = o := by
  cases o <;> rfl

theorem decodeEntry_of_code {o : Opcode} {w0 w1 : Word} (h : o.code = field w0 24 8) :
    decodeEntry w0 w1 = .ok (decodeFields o w0 w1) := by
  simp only [decodeEntry, (Opcode.ofCode_eq_some_iff _ o).mpr h]

theorem decodeEntry_eq_ok_iff (w0 w1 : Word) (i : Instr) :
    decodeEntry w0 w1 = .ok i ↔ i.opcode.code = field w0 24 8 ∧ decodeFields i.opcode w0 w1 = i := by
  constructor
  · intro h
    unfold decodeEntry at h
    split at h
    · next o ho =>
      obtain rfl := Except.ok.inj h
      rw [decodeFields_opcode]
      exact ⟨(Opcode.ofCode_eq_some_iff _ o).mp ho, rfl⟩
    · cases h
  · rintro ⟨hcode, hi⟩
    rw [decodeEntry_of_code hcode, hi]

theorem decodeEntry_unassigned {w0 : Word} (w1 : Word) (h : field w0 24 8 ∉ Machine.assignedBytes) :
    decodeEntry w0 w1 = .error (.unassigned (field w0 24 8)) := by
  simp only [decodeEntry, (Opcode.ofCode_eq_none_iff _).mpr h]

/-- The entry's opcode byte is its first byte (R64, R91). -/
theorem field_wordOfBytes_top (b0 b1 b2 b3 : Byte) : field (wordOfBytes b0 b1 b2 b3) 24 8 = b0 := by
  simp (disch := decide) only [wordOfBytes, field_or, field_put_same, field_put_disjoint, BitVec.or_zero]

/-! Decoding what was encoded -/

/-- No parameter of the first word reaches the opcode byte (R97 to R109). -/
theorem field_encodeParams_opcodeByte (i : Instr) : field (encodeParams i) 24 8 = 0#8 := by
  cases i <;>
    simp (disch := decide) only [encodeParams, triple, pair, field_or, field_put_disjoint, field_zero, BitVec.or_self]

theorem field_encode_opcodeByte (i : Instr) : field (encode i).1 24 8 = i.opcode.code := by
  rw [encode, field_or, field_encodeParams_opcodeByte, field_put_same _ _ (by decide), BitVec.or_zero]

/-- Each operand is read where it was put, and no other operand lies there. -/
theorem decodeFields_encode (i : Instr) : decodeFields i.opcode (encode i).1 (encode i).2 = i := by
  cases i <;>
    simp (disch := decide) only [decodeFields, Instr.opcode, encode, encodeParams, encodeW1, triple, pair, channels,
      field_or, field_put_same, field_put_disjoint, BitVec.or_zero, BitVec.zero_or]

theorem decodeEntry_encode (i : Instr) : decodeEntry (encode i).1 (encode i).2 = .ok i :=
  (decodeEntry_eq_ok_iff _ _ i).mpr ⟨(field_encode_opcodeByte i).symm, decodeFields_encode i⟩

theorem encode_injective {i j : Instr} (h : encode i = encode j) : i = j := by
  have hok := decodeEntry_encode i
  rw [h, decodeEntry_encode j] at hok
  exact (Except.ok.inj hok).symm

/-! Encoding what was decoded -/

/-- A field put back where it was read is the word's bits there. -/
theorem put_field (w : Word) (lo n : Nat) : put (field w lo n) lo = w &&& (BitVec.allOnes n).setWidth 32 <<< lo := by
  unfold put field
  ext i hi
  by_cases hlo : i < lo
  · simp [hlo]
  · have hi' : lo + (i - lo) = i := by omega
    simp [hlo, hi', BitVec.getLsbD_eq_getElem hi, Bool.and_comm]

/-- A decoded entry encodes to its own words with the ignored bits cleared. -/
theorem encode_decodeFields {o : Opcode} {w0 : Word} (w1 : Word) (h : o.code = field w0 24 8) :
    encode (decodeFields o w0 w1) = (w0 &&& ~~~o.ignored.1, w1 &&& ~~~o.ignored.2) := by
  have hwhole : w1 &&& 0xFFFFFFFF#32 = w1 := BitVec.and_allOnes
  rw [encode, decodeFields_opcode, h]
  cases o
  all_goals
    -- each word is the decoded word under the union of its fields' masks
    simp only [decodeFields, encodeParams, encodeW1, triple, pair, channels, put_field, ← BitVec.and_or_distrib_left,
      Opcode.ignored]
    -- and the union is the complement of the ignored bits
    simp [hwhole]

/-- The masks leave the opcode byte out (R111). -/
theorem field_ignored_opcodeByte (o : Opcode) : field o.ignored.1 24 8 = 0#8 := by
  cases o <;> decide

/-- Turning bits over within a mask leaves the field beside it. -/
theorem field_xor_and_mask (w x m : Word) (lo n : Nat) (h : field m lo n = 0#n) :
    field (w ^^^ (x &&& m)) lo n = field w lo n := by
  unfold field at *
  rw [BitVec.extractLsb'_xor, BitVec.extractLsb'_and, h, BitVec.and_zero, BitVec.xor_zero]

/-- Clearing a mask's bits forgets what was turned over within it. -/
theorem xor_and_mask_and_not_mask (w x m : Word) : (w ^^^ (x &&& m)) &&& ~~~m = w &&& ~~~m := by
  ext i hi
  cases hm : m[i] <;> simp [hm]

/-- A word without the bits of a mask is left by clearing them. -/
theorem and_not_mask_of_and_mask {w m : Word} (h : w &&& m = 0#32) : w &&& ~~~m = w := by
  calc w &&& ~~~m = w &&& m ||| w &&& ~~~m := by rw [h, BitVec.zero_or]
    _ = w := by rw [← BitVec.and_or_distrib_left, BitVec.or_not_self, BitVec.and_allOnes]

end Sys2Proof
end

section
/-! SUPPORT. The step on an entry whose opcode is unassigned (R91, R110, R121). -/

namespace Sys2Proof.Machine

theorem State.fetch_unassigned {s : State} {f : Frame} (h : Memory.byte s.mem f.entryLoc ∉ assignedBytes) :
    s.fetch f = .error (.unassigned (Memory.byte s.mem f.entryLoc)) := by
  have htop := field_wordOfBytes_top (Memory.byte s.mem f.entryLoc) (Memory.byte s.mem (f.entryLoc + 1))
    (Memory.byte s.mem (f.entryLoc + 2)) (Memory.byte s.mem (f.entryLoc + 3))
  rw [← htop] at h
  rw [State.fetch, Memory.entryBytes, decode, decodeEntry_unassigned _ h, htop]

theorem step_of_fetch_error {s : State} {f : Frame} {fs : List Frame} {e : DecodeError} (hstack : s.stack = f :: fs)
    (hcursor : f.cursor < s.params.iterCap) (hfetch : s.fetch f = .error e) : step s = .next (s.advance 1) := by
  simp only [step, hstack, if_neg (Nat.not_le.mpr hcursor), hfetch, execUnassigned]

end Sys2Proof.Machine
end

section
/-! SUPPORT. A tile's descriptor written by one command (R179 to R182), and what a textured rectangle over a realized tile
draws (R236). -/

namespace Sys2Proof.Machine

/-! One tile written -/

@[simp] theorem State.setTile_setTile (s : State) (t : Fin 8) (d d' : Tile) :
    (s.setTile t d).setTile t d' = s.setTile t d' := by
  simp [State.setTile]

/-- A command that writes the descriptor of the tile it selects leaves the other tiles. -/
theorem State.tileAt_setTile_of_val_ne (s : State) (tile : BitVec 3) (d : Tile) {k : Fin 8} (h : k.val ≠ tile.toNat) :
    (s.setTile tile.toFin d).tileAt k = s.tileAt k :=
  State.tileAt_setTile_other _ _ _ _ fun heq => h (congrArg Fin.val heq.symm)

/-- SETTILESIZE on an unbound tile writes its descriptor once (R180). -/
theorem State.setBounds_bindSource_eq (s : State) (t : Fin 8) (uls ult lrs lrt : BitVec 12) :
    (s.setBounds t uls ult lrs lrt).bindSource t =
      s.setTile t
        { s.tileAt t with
          uls := uls, ult := ult, lrs := lrs, lrt := lrt
          width := extent uls lrs, height := extent ult lrt
          src := s.resolve s.timg.addr } := by
  rw [State.bindSource, State.setBounds, State.tileAt_setTile_same, State.setTile_setTile]
  rfl

/-! A rectangle over a realized tile -/

theorem State.ensureRealized_of_tex {s : State} {t : Fin 8} {h : Handle} (htex : (s.tileAt t).tex = some h) :
    s.ensureRealized t = s := by
  simp [State.ensureRealized, htex]

@[simp] theorem State.tileAt_takeContinuation (s : State) (t : Fin 8) : s.takeContinuation.tileAt t = s.tileAt t := by
  simp [State.tileAt]

/-- A tile that holds a texture and has a positive size is drawn as it is (R236). -/
theorem State.texrect_of_realized {s : State} {t : Fin 8} {h : Handle} (htex : (s.tileAt t).tex = some h)
    (hw : 1 ≤ (s.tileAt t).width) (hh : 1 ≤ (s.tileAt t).height) (lrx lry ulx uly : BitVec 12) :
    s.texrect lrx lry t ulx uly = s.takeContinuation.drawTexrect (s.tileAt t) h lrx lry ulx uly := by
  have hfirst : s.takeContinuation.ensureRealized t = s.takeContinuation :=
    State.ensureRealized_of_tex (by rwa [State.tileAt_takeContinuation])
  have hcases := s.texrect_cases lrx lry t ulx uly
  simp only [hfirst, State.tileAt_takeContinuation] at hcases
  rcases hcases with ⟨-, hnone | hsmall | hsmall⟩ | ⟨h', htex', -, -, he⟩
  · exact nomatch htex.symm.trans hnone
  · exact absurd hw (Int.not_le.mpr hsmall)
  · exact absurd hh (Int.not_le.mpr hsmall)
  · obtain rfl : h = h' := Option.some.inj (htex.symm.trans htex')
    exact he

end Sys2Proof.Machine
end

section
/-! The statements of the family of spec/30_encoding.md, settled. -/

namespace Sys2Proof.Machine

/-- Settles O1: the bytes hold the two words, and each operand is read where it was put. -/
theorem decodeGivesBackEveryEncodedCommand : Obligations.DecodeGivesBackEveryEncodedCommand := by
  intro i rest
  rw [encodeBytes, decode_wordBytes, decodeEntry_encode]

/-- Settles O2: encoding what was decoded clears the ignored bits, which are clear here. -/
theorem encodeGivesBackEveryAssembledEntry : Obligations.EncodeGivesBackEveryAssembledEntry := by
  intro w0 w1 i hdecode hassembled
  obtain ⟨hcode, hi⟩ := (decodeEntry_eq_ok_iff w0 w1 i).mp hdecode
  simp only [assembled, Bool.and_eq_true, beq_iff_eq] at hassembled
  obtain ⟨hclear0, hclear1⟩ := hassembled
  calc encode i = encode (decodeFields i.opcode w0 w1) := by rw [hi]
    _ = (w0 &&& ~~~i.opcode.ignored.1, w1 &&& ~~~i.opcode.ignored.2) := encode_decodeFields w1 hcode
    _ = (w0, w1) := by rw [and_not_mask_of_and_mask hclear0, and_not_mask_of_and_mask hclear1]

/-- Settles O3: both entries have the opcode, and the commands they decode to have one encoding, so they are one. -/
theorem ignoredBitsDoNotChangeTheCommand : Obligations.IgnoredBitsDoNotChangeTheCommand := by
  intro o w0 w1 x0 x1 ho
  have hcode := (Opcode.ofCode_eq_some_iff _ o).mp ho
  have hcode' : o.code = field (w0 ^^^ (x0 &&& o.ignored.1)) 24 8 := by
    rw [field_xor_and_mask _ _ _ _ _ (field_ignored_opcodeByte o), hcode]
  rw [decodeEntry_of_code hcode, decodeEntry_of_code hcode']
  refine congrArg Except.ok (encode_injective ?_)
  rw [encode_decodeFields _ hcode, encode_decodeFields _ hcode', xor_and_mask_and_not_mask, xor_and_mask_and_not_mask]

/-- Settles O4: the bytes listed are the codes of the opcodes, and decoding keeps the opcode found. -/
theorem opcodeByteAloneDecidesTheCommand : Obligations.OpcodeByteAloneDecidesTheCommand := by
  refine ⟨fun _ w1 h => decodeEntry_unassigned w1 h, fun w0 w1 h => ?_, by decide, rfl⟩
  obtain ⟨o, hcode⟩ := mem_assignedBytes_iff.mp h
  exact ⟨decodeFields o w0 w1, decodeEntry_of_code hcode, by rw [decodeFields_opcode, hcode]⟩

/-- Settles O7: the decoder rejects the entry by its first byte, and the step then only moves the cursor. -/
theorem unassignedOpcodeOnlyMovesTheCursor : Obligations.UnassignedOpcodeOnlyMovesTheCursor := by
  intro s f fs hstack hcursor hbyte
  rw [← s.advance_cons 1 f fs hstack]
  exact step_of_fetch_error hstack hcursor (State.fetch_unassigned hbyte)

/-- Settles O51: the continuation is taken, and the tile is drawn as it is. -/
theorem texrectDrawsARealizedTile : Obligations.TexrectDrawsARealizedTile := by
  intro s f fs lrx lry ulx uly tile k h c0 c1 s0 t0 s1 t1 w ht hstack hk htex hw hh hc0 hc1 hs0 ht0 hs1 ht1 hwidth
    hheight white t
  obtain rfl : tile.toFin = k := Fin.ext hk.symm
  have hcont : f.base + 8 * (f.cursor + 1) + 4 = f.base + 8 * f.cursor + 12 := by omega
  have hnext : s.texrect lrx lry tile.toFin ulx uly = t := by
    rw [State.texrect_of_realized htex hw hh, s.takeContinuation_cons f fs hstack, hcont, ← hc0, ← hc1]
    subst hs1 ht1 hs0 ht0 hwidth hheight
    simp only [State.drawTexrect, State.emitRect, State.emit, List.append_assoc]
    rfl
  exact ⟨congrArg Host.Outcome.next hnext, congrArg Host.Outcome.next hnext⟩

/-- Settles O5: each word's fields, evaluated. -/
theorem specWordsDecodeAsWritten : Obligations.SpecWordsDecodeAsWritten :=
  ⟨rfl, rfl, rfl, rfl, rfl, rfl, rfl⟩

/-- Settles O38: the command's meaning is that update. -/
theorem textureWritesTheScales : Obligations.TextureWritesTheScales := fun _ _ _ => rfl

/-- Settles O39: the stride is at most 4096, so its 13 bits do not wrap. -/
theorem settimgRecordsTheImage : Obligations.SettimgRecordsTheImage := by
  intro s fmt siz wm1 addr
  refine ⟨_, rfl, rfl, rfl, rfl, rfl, ?_⟩
  have hlt := wm1.isLt
  simp
  omega

/-- Settles O40: one write of the descriptor selected. -/
theorem settileWritesItsFields : Obligations.SettileWritesItsFields := by
  intro s fmt siz line tmem tile palette cmt maskt shiftt cms masks shifts
  refine ⟨_, rfl, rfl, fun k hk => s.tileAt_setTile_of_val_ne tile _ hk, fun k hk => ?_⟩
  obtain rfl : tile.toFin = k := Fin.ext hk.symm
  exact State.tileAt_setTile_same _ _ _

/-- Settles O41: both are one write of the source of the tile selected. -/
theorem loadsBindTheCurrentImage : Obligations.LoadsBindTheCurrentImage := by
  intro s a b c d tile
  refine ⟨_, rfl, rfl, rfl, fun k hk => s.tileAt_setTile_of_val_ne tile _ hk, fun k hk => ?_⟩
  obtain rfl : tile.toFin = k := Fin.ext hk.symm
  exact State.tileAt_setTile_same _ _ _

/-- Settles O42: bounds and binding are one write of the tile selected. -/
theorem settilesizeOnAnUnboundTileBindsIt : Obligations.SettilesizeOnAnUnboundTileBindsIt := by
  intro s uls ult lrs lrt tile k hk hsrc
  obtain rfl : tile.toFin = k := Fin.ext hk.symm
  rcases execSettilesize_cases uls ult tile lrs lrt s with ⟨hbound, -⟩ | ⟨-, he⟩
  · exact absurd hsrc hbound
  · rw [State.setBounds_bindSource_eq] at he
    exact ⟨_, he, rfl, fun k' hne => State.tileAt_setTile_other _ _ _ _ hne.symm, State.tileAt_setTile_same _ _ _⟩

/-- Settles O49: each command's meaning is that update. -/
theorem colourCommandsWriteTheirRegister : Obligations.ColourCommandsWriteTheirRegister :=
  fun _ _ _ _ _ _ => ⟨rfl, rfl, rfl⟩

end Sys2Proof.Machine
end

section
/-! SUPPORT. The walker's operations with the whole next state: the return from a list, DL in its two cases, the step with
no list active and at the cap, and the entry of a pass (R120 to R125, R293); and the machine run for several steps. -/

namespace Sys2Proof.Machine

/-! The return from a list -/

theorem State.returnFromList_cons {s : State} {f : Frame} {fs : List Frame} (h : s.stack = f :: fs) :
    s.returnFromList = { s with stack := fs.dropWhile Frame.tail } := by
  rw [State.returnFromList, h]
  rfl

/-- Marked frames over a rest that does not begin with one: exactly the rest stays. -/
theorem dropWhile_tail_append {marked rest : List Frame} (hmarked : ∀ g ∈ marked, g.tail = true)
    (hrest : ∀ g, rest.head? = some g → g.tail = false) : (marked ++ rest).dropWhile Frame.tail = rest := by
  rw [List.dropWhile_append_of_pos hmarked]
  cases rest with
  | nil => rfl
  | cons g gs => exact List.dropWhile_cons_of_neg (by simp [hrest g rfl])

theorem exec_endList (s : State) : exec .endList s = .next s.returnFromList := rfl

/-! DL -/

theorem exec_dl_of_resolved {s : State} {addr : Addr} {base : Nat} (j : BitVec 1) (hres : s.resolve addr = some base)
    (hlen : s.stack.length ≤ 32) : exec (.dl j addr) s = .next (s.callList j base) := by
  rcases execDl_cases j addr s with ⟨base', hres', -, he⟩ | ⟨hnone | hfull, -⟩
  · obtain rfl : base = base' := Option.some.inj (hres.symm.trans hres')
    exact he
  · exact nomatch hres.symm.trans hnone
  · exact absurd hlen (Nat.not_le.mpr hfull)

theorem exec_dl_of_skipped {s : State} {addr : Addr} (j : BitVec 1)
    (h : s.resolve addr = none ∨ 32 < s.stack.length) : exec (.dl j addr) s = .next (s.skipList j) := by
  rcases execDl_cases j addr s with ⟨base, hres, hlen, -⟩ | ⟨-, he⟩
  · rcases h with hnone | hfull
    · exact nomatch hnone.symm.trans hres
    · exact absurd hlen (Nat.not_le.mpr hfull)
  · exact he

theorem State.callList_call (s : State) (base : Nat) :
    s.callList 0#1 base = { s with stack := ⟨base, 0, false⟩ :: s.stack } := rfl

theorem State.callList_jump {s : State} {f : Frame} {fs : List Frame} (h : s.stack = f :: fs) (base : Nat) :
    s.callList 1#1 base = { s with stack := ⟨base, 0, false⟩ :: { f with tail := true } :: fs } := by
  simp only [State.callList, if_true, State.enter, h, markTail]

theorem State.skipList_call (s : State) : s.skipList 0#1 = s := rfl

theorem State.skipList_jump {s : State} {f : Frame} {fs : List Frame} (h : s.stack = f :: fs) :
    s.skipList 1#1 = { s with stack := fs.dropWhile Frame.tail } :=
  State.returnFromList_cons h

/-! The step -/

theorem step_of_cap {s : State} {f : Frame} {fs : List Frame} (hstack : s.stack = f :: fs)
    (hcap : s.params.iterCap ≤ f.cursor) : step s = .next s.returnFromList := by
  simp only [step, hstack, if_pos hcap]

/-- The first entry of a list lies at its base (R44, R66). -/
theorem State.fetch_fresh (s : State) (base : Nat) :
    s.fetch ⟨base, 0, false⟩ = decode (Memory.entryBytes s.mem base) := rfl

/-- A step on END below the cap returns from the list (R121, R123). -/
theorem step_of_endList {s : State} {f : Frame} {fs : List Frame} (hstack : s.stack = f :: fs)
    (hcursor : f.cursor < s.params.iterCap) (hfetch : s.fetch f = .ok .endList) :
    step s = .next { s with stack := fs.dropWhile Frame.tail } := by
  rw [step_of_fetch_ok hstack hcursor hfetch, exec_endList, s.advance_cons 1 f fs hstack]
  rfl

theorem step_of_no_list {s : State} (hstack : s.stack = []) : step s = .next s.betweenPasses := by
  simp only [step, hstack]

/-- Every command answers a next state (R280). -/
theorem exec_answers (i : Instr) (s : State) : ∃ t, exec i s = .next t := by
  cases i
  case mtx j l p addr =>
    rcases execMtx_cases j l p addr s with ⟨-, he⟩ | ⟨_, -, he⟩ <;> exact ⟨_, he⟩
  case settilesize uls ult tile lrs lrt =>
    rcases execSettilesize_cases uls ult tile lrs lrt s with ⟨-, he⟩ | ⟨-, he⟩ <;> exact ⟨_, he⟩
  all_goals exact ⟨_, rfl⟩

/-- Every step answers a next state (R280). -/
theorem step_answers (s : State) : ∃ t, step s = .next t := by
  rcases step_cases s with ⟨-, he⟩ | ⟨_, _, -, -, he⟩ | ⟨_, _, i, -, -, -, he⟩ | ⟨_, _, _, -, -, -, he⟩
  · exact ⟨_, he⟩
  · exact ⟨_, he⟩
  · rw [he]
    exact exec_answers i _
  · exact ⟨_, he⟩

/-! The machine run for several steps -/

theorem core_run_succ {M : Host.Core} {s t : M.State} (h : M.step s = .next t) (n : Nat) :
    M.run (n + 1) s = M.run n t := by
  rw [Host.Core.run, h]

/-- A sub-list that is just END: one step enters it, the next returns from it. -/
theorem core_run_enter_endList {s : State} {base : Nat} {below : List Frame}
    (henter : step s = .next { s with stack := ⟨base, 0, false⟩ :: below }) (hcap : 0 < s.params.iterCap)
    (hend : decode (Memory.entryBytes s.mem base) = .ok .endList) :
    Host.Core.run Sys2Proof.core 2 s = .next { s with stack := below.dropWhile Frame.tail } := by
  have hback : step { s with stack := ⟨base, 0, false⟩ :: below } =
      .next { s with stack := below.dropWhile Frame.tail } :=
    step_of_endList rfl hcap ((State.fetch_fresh _ base).trans hend)
  exact (core_run_succ henter 1).trans (core_run_succ hback 0)

/-! The entry of a pass -/

/-- At most one frame is on the stack: the list's, if its reference resolved (R120). -/
theorem State.enterPass_eq (s : State) (ref : Option Nat) :
    s.enterPass ref = { s with stack := ref.toList.map fun base => ⟨base, 0, false⟩ } := by
  cases ref <;> rfl

@[simp] theorem State.enterPass_stack (s : State) (ref : Option Nat) :
    (s.enterPass ref).stack = ref.toList.map fun base => ⟨base, 0, false⟩ := by
  rw [s.enterPass_eq]

@[simp] theorem State.enterPass_resolve (s : State) (ref : Option Nat) (a : Addr) :
    (s.enterPass ref).resolve a = s.resolve a := by
  rw [s.enterPass_eq]
  rfl

/-- The stack at the start of a pass is what the new pass's resolver answers for its list (R120). -/
theorem State.startPass_stack (s : State) (p : PassRequest) :
    (s.startPass p).stack = ((s.startPass p).resolve p.top).toList.map fun base => ⟨base, 0, false⟩ := by
  rw [State.startPass, State.enterPass_stack, State.enterPass_resolve]

/-- The start of a pass is the frame reset on the pass's resolver and memory, and its list's frame (R293). -/
theorem State.startPass_frame (s : State) (p : PassRequest) :
    s.startPass p =
      { s.frameReset with resolver := p.resolver, mem := p.mem, stack := (s.startPass p).stack } := by
  simp only [State.startPass, State.enterPass_eq]

theorem State.betweenPasses_cons {s : State} {p : PassRequest} {rest : List PassRequest} (h : s.requests = p :: rest) :
    s.betweenPasses = ({ s with requests := rest } : State).startPass p := by
  simp only [State.betweenPasses, h]

end Sys2Proof.Machine
end

section
/-! SUPPORT. How many steps the lists on the stack can still take: a bound that every step of a pass lowers (R46, R122,
R124, R295). -/

namespace Sys2Proof.Machine

/-- The steps an entry of a list over the frames `below` can take: its own, and those of a whole sub-list, of which the
33 frames of R46 leave `32 - below.length` levels. -/
def entryBound (cap : Nat) (below : List Frame) : Nat := 1 + listBound cap (32 - below.length)

/-- The steps the lists on the stack can still take: for each, its entries left below the cap and the step that ends
it. -/
def stackBound (cap : Nat) : List Frame → Nat
  | [] => 0
  | f :: fs => (cap - f.cursor) * entryBound cap fs + 1 + stackBound cap fs

/-- A list entered afresh adds what `listBound` gives a list of its level. -/
theorem stackBound_fresh (cap base : Nat) {fs : List Frame} (hlen : fs.length ≤ 32) :
    stackBound cap (⟨base, 0, false⟩ :: fs) = listBound cap (33 - fs.length) + stackBound cap fs := by
  have hlevel : 33 - fs.length = (32 - fs.length) + 1 := by omega
  rw [hlevel]
  rfl

@[simp] theorem stackBound_markTail (cap : Nat) (l : List Frame) : stackBound cap (markTail l) = stackBound cap l := by
  cases l <;> rfl

theorem stackBound_dropWhile_le (cap : Nat) (p : Frame → Bool) (l : List Frame) :
    stackBound cap (l.dropWhile p) ≤ stackBound cap l := by
  induction l with
  | nil => exact Nat.le_refl 0
  | cons f fs ih =>
    rw [List.dropWhile_cons]
    split
    · exact ih.trans (Nat.le_add_left _ _)
    · exact Nat.le_refl _

theorem stackBound_popFrames_lt (cap : Nat) (f : Frame) (fs : List Frame) :
    stackBound cap (popFrames (f :: fs)) < stackBound cap (f :: fs) :=
  calc stackBound cap (popFrames (f :: fs)) ≤ stackBound cap fs := stackBound_dropWhile_le cap Frame.tail fs
    _ < stackBound cap (f :: fs) := by rw [stackBound]; omega

theorem stackBound_advance_le (cap n : Nat) (s : State) :
    stackBound cap (s.advance n).stack ≤ stackBound cap s.stack := by
  cases h : s.stack with
  | nil => simp only [State.advance, h, Nat.le_refl]
  | cons f fs =>
    rw [s.advance_cons n f fs h]
    have hentries : (cap - (f.cursor + n)) * entryBound cap fs ≤ (cap - f.cursor) * entryBound cap fs :=
      Nat.mul_le_mul_right _ (by omega)
    simp only [stackBound]
    omega

/-- The move past one entry below the cap takes off what that entry can take. -/
theorem stackBound_advance_one {cap : Nat} {s : State} {f : Frame} {fs : List Frame} (hstack : s.stack = f :: fs)
    (hcursor : f.cursor < cap) :
    stackBound cap (s.advance 1).stack + entryBound cap fs = stackBound cap s.stack := by
  have hentries : cap - f.cursor = (cap - (f.cursor + 1)) + 1 := by omega
  rw [s.advance_cons 1 f fs hstack, hstack]
  simp only [stackBound, hentries, Nat.add_one_mul]
  omega

/-- A command adds at most a whole sub-list (R124). -/
theorem exec_stackBound_le (cap : Nat) {i : Instr} {s t : State} {f : Frame} {fs : List Frame}
    (h : exec i s = .next t) (hstack : s.stack = f :: fs) :
    stackBound cap t.stack ≤ stackBound cap s.stack + listBound cap (32 - fs.length) := by
  rcases exec_stack_cases h with he | he | he | ⟨base, hlen, he⟩
  · rw [he]
    exact Nat.le_add_right _ _
  · rw [he]
    exact (stackBound_advance_le cap 2 s).trans (Nat.le_add_right _ _)
  · rw [he, hstack]
    exact (stackBound_popFrames_lt cap f fs).le.trans (Nat.le_add_right _ _)
  · have hlevel : 33 - s.stack.length = 32 - fs.length := by simp [hstack]
    rcases he with he | he
    · rw [he, stackBound_fresh cap base hlen, hlevel, Nat.add_comm]
    · rw [he, stackBound_fresh cap base (by rwa [markTail_length]), markTail_length, stackBound_markTail, hlevel,
        Nat.add_comm]

/-- Every step of a pass lowers the bound (R122). -/
theorem step_stackBound_lt {s t : State} (hs : s.stack ≠ []) (h : step s = .next t) :
    stackBound s.params.iterCap t.stack < stackBound s.params.iterCap s.stack := by
  rcases step_cases s with ⟨hnil, -⟩ | ⟨f, fs, hstack, -, he⟩ | ⟨f, fs, i, hstack, hcursor, -, he⟩ |
    ⟨f, fs, _, hstack, hcursor, -, he⟩
  · exact absurd hnil hs
  · obtain rfl := Host.Outcome.next.inj (he.symm.trans h)
    rw [State.returnFromList_stack, hstack]
    exact stackBound_popFrames_lt _ f fs
  · have hexec := exec_stackBound_le s.params.iterCap (he.symm.trans h)
      (congrArg State.stack (s.advance_cons 1 f fs hstack))
    have hmove := stackBound_advance_one hstack hcursor
    rw [entryBound] at hmove
    omega
  · obtain rfl := Host.Outcome.next.inj (he.symm.trans h)
    have hmove := stackBound_advance_one hstack hcursor
    rw [entryBound] at hmove
    omega

/-- The stack is empty after at most as many steps as the bound says. -/
theorem core_run_empties_stack {b : Nat} {s : State} (h : stackBound s.params.iterCap s.stack ≤ b) :
    ∃ (n : Nat) (t : State), n ≤ b ∧ Host.Core.run Sys2Proof.core n s = .next t ∧ t.stack = [] := by
  induction b generalizing s with
  | zero =>
    cases hs : s.stack with
    | nil => exact ⟨0, s, Nat.le_refl 0, rfl, hs⟩
    | cons f fs => rw [hs, stackBound] at h; omega
  | succ b ih =>
    by_cases hs : s.stack = []
    · exact ⟨0, s, Nat.zero_le _, rfl, hs⟩
    obtain ⟨t, hstep⟩ := step_answers s
    obtain ⟨-, -, hparams, -, -⟩ := step_inputs hs hstep
    have hlower := step_stackBound_lt hs hstep
    rw [← hparams] at hlower h
    obtain ⟨n, u, hn, hrun, hu⟩ := ih (s := t) (by omega)
    exact ⟨n + 1, u, Nat.succ_le_succ hn, (core_run_succ hstep n).trans hrun, hu⟩

end Sys2Proof.Machine
end

section
/-! The statements of the family of spec/40_walker_control.md, settled. -/

namespace Sys2Proof.Machine

/-- Settles O9: the return drops the marked frames and stops at the rest. -/
theorem endPopsTheListAndItsTailCallers : Obligations.EndPopsTheListAndItsTailCallers := by
  intro s f marked rest hstack hmarked hrest
  rw [exec_endList, State.returnFromList_cons hstack, dropWhile_tail_append hmarked hrest]

/-- Settles O10: the two cases of DL, each as call and as jump. -/
theorem dlEntersOrSkipsTheSubList : Obligations.DlEntersOrSkipsTheSubList := by
  intro s f fs addr hstack
  rw [← hstack]
  refine ⟨fun base hres hlen => ?_, fun hskip => ?_⟩
  · rw [exec_dl_of_resolved _ hres hlen, exec_dl_of_resolved _ hres hlen]
    exact ⟨congrArg _ (s.callList_call base), congrArg _ (State.callList_jump hstack base)⟩
  · rw [exec_dl_of_skipped _ hskip, exec_dl_of_skipped _ hskip]
    exact ⟨congrArg _ s.skipList_call, congrArg _ (State.skipList_jump hstack)⟩

/-- Settles O12: the first step enters the sub-list, the second runs its END, which pops the caller only if the DL marked
it. -/
theorem callsComeBackAndJumpsDoNot : Obligations.CallsComeBackAndJumpsDoNot := by
  intro s f fs j addr base hstack hopen hlen hcursor hdl hres hend
  have hadvance := s.advance_cons 1 f fs hstack
  have hstack' : (s.advance 1).stack = { f with cursor := f.cursor + 1 } :: fs := congrArg State.stack hadvance
  have henter : step s = .next ((s.advance 1).callList j base) := by
    rw [step_of_fetch_ok hstack hcursor hdl]
    exact exec_dl_of_resolved j (by rwa [State.resolve_congr (s.advance_resolver 1)])
      (by simpa [hstack'] using hlen)
  have hcap : 0 < s.params.iterCap := Nat.zero_lt_of_lt hcursor
  obtain rfl | rfl := BitVec.eq_zero_or_eq_one j
  · rw [State.callList_call, hadvance] at henter
    rw [core_run_enter_endList henter hcap hend]
    simp [hopen]
  · rw [State.callList_jump hstack', hadvance] at henter
    rw [core_run_enter_endList henter hcap hend]
    simp

/-- Settles O13: the bound of a stack that holds one fresh list is `passBound`. -/
theorem everyPassTerminates : Obligations.EveryPassTerminates := by
  intro s base hstack
  refine core_run_empties_stack (Nat.le_of_eq ?_)
  rw [hstack, stackBound_fresh _ base (Nat.zero_le _)]
  rfl

/-- Settles O26: the start of a pass with the frame reset's releases done. -/
theorem passStartResetsTheFrame : Obligations.PassStartResetsTheFrame := by
  intro s p rest hstack hreq
  have hstep := step_of_no_list hstack
  rw [State.betweenPasses_cons hreq] at hstep
  have htop := State.startPass_stack { s with requests := rest } p
  have hframe := State.startPass_frame { s with requests := rest } p
  rw [State.frameReset_eq] at hframe
  generalize ({ s with requests := rest } : State).startPass p = t at hstep htop hframe
  refine ⟨t, hstep, (congrArg State.out hframe :), fun k => ?_, (congrArg State.legacyTex hframe :),
    (congrArg State.mv hframe :), (congrArg State.pj hframe :), (congrArg State.mvp hframe :),
    (congrArg State.tscaleS hframe :), (congrArg State.tscaleT hframe :), (congrArg State.cont0 hframe :),
    (congrArg State.cont1 hframe :), (congrArg State.mem hframe :), (congrArg State.resolver hframe :),
    (congrArg State.params hframe :), (congrArg State.requests hframe :), (congrArg State.answers hframe :),
    (congrArg State.draws hframe :), fun hnone => ?_, fun base hres => ?_⟩
  · have htile : t.tile = Vector.replicate Config.nTiles Tile.zero := (congrArg State.tile hframe :)
    simp [State.tileAt, htile]
  · rw [htop, hnone]
    rfl
  · rw [htop, hres]
    rfl

/-- Settles O8: the step at the cap is the return END runs. -/
theorem iterationCapEndsTheListAsEndDoes : Obligations.IterationCapEndsTheListAsEndDoes := by
  intro s f fs hstack hcap
  rw [exec_endList, step_of_cap hstack hcap, State.returnFromList_cons hstack]
  exact ⟨rfl, rfl⟩

/-- Settles O15: each command's meaning is the state it is given. -/
theorem noOpFamilyChangesNothing : Obligations.NoOpFamilyChangesNothing :=
  fun _ _ => ⟨rfl, rfl, rfl, rfl, rfl, rfl, rfl, rfl⟩

end Sys2Proof.Machine
end

section
/-! SUPPORT. A row of four times the identity, which is an element of a product with the identity on the right (R142) and
a clip component under the identity (R148). -/

namespace Sys2Proof.Machine

/-- Finite factors can be exchanged; the bits of a NaN depend on their order (R153). -/
theorem fmul_comm_of_finite {a b : F32} (ha : fisFinite a = true) (hb : fisFinite b = true) : fmul a b = fmul b a := by
  rw [fmul_finite ha hb, fmul_finite hb ha, bne_comm, Nat.mul_comm]

/-- A row of elements on the left of column `j` of the identity, its sum in ascending `k`. -/
theorem row_mul_identity (r : Fin 4 → F32) (hr : ∀ k, plainFloat (r k)) (j : Fin 4) :
    fadd (fadd (fadd (fmul (r 0) identity[0][j]) (fmul (r 1) identity[1][j])) (fmul (r 2) identity[2][j]))
      (fmul (r 3) identity[3][j]) = r j := by
  have hcomm (k : Fin 4) : fmul (r k) identity[k][j] = fmul identity[k][j] (r k) :=
    fmul_comm_of_finite (hr k).1 (plainFloat_identity k j).1
  have hself : fmul (r j) identity[j][j] = r j := by
    rw [hcomm, identity_getElem, if_pos rfl, fmul_one_left (hr j).1]
  have hother : ∀ k, k ≠ j → fisZero (fmul (r k) identity[k][j]) = true := by
    intro k hk
    rw [hcomm, identity_getElem, if_neg hk]
    exact fisZero_fmul_zero_left (hr k).1
  exact (sum_of_zeros (fun k => fmul (r k) identity[k][j]) j (hself.symm ▸ hr j) hother).trans hself

/-- The identity is neutral on the right of finite elements without negative zeros (R142). -/
theorem matMul_identity_right (m : Mat) (hm : ∀ i j : Fin 4, plainFloat m[i][j]) : matMul m identity = m := by
  refine Mat.ext_getElem fun i j => ?_
  rw [matMul_getElem]
  exact row_mul_identity (fun k => m[i][k]) (hm i) j

/-- An integer of 24 bits is converted to a finite value, and 0 to +0.0 (R10). -/
theorem plainFloat_i2f (n : Int) (hn : n.natAbs ≤ 2 ^ 24) : plainFloat (i2f n) := by
  obtain ⟨hfin, hval⟩ := i2f_exact n hn
  refine ⟨hfin, fun hneg => ?_⟩
  have hsign : fsign (i2f n) = true := by
    rw [hneg]
    rfl
  have hzero : fval (i2f n) = 0 := by
    rw [hneg]
    decide
  rw [i2f, fsign_roundRatio, decide_eq_true_eq] at hsign
  omega

/-- A clip component under the identity is the component of the position, whose fourth is 1.0 (R148). -/
theorem clip_identity {x y z : F32} (hx : plainFloat x) (hy : plainFloat y) (hz : plainFloat z) (j : Fin 4) :
    clip identity x y z j = ![x, y, z, 0x3F800000#32] j := by
  have hrow : ∀ k, plainFloat (![x, y, z, 0x3F800000#32] k) := by
    intro k
    match k with
    | 0 => exact hx
    | 1 => exact hy
    | 2 => exact hz
    | 3 => exact plainFloat_identity 3 3
  have hfourth : fmul 0x3F800000#32 identity[3][j] = identity[3][j] := fmul_one_left (plainFloat_identity 3 j).1
  rw [clip, ← hfourth]
  exact row_mul_identity _ hrow j

end Sys2Proof.Machine
end

section
/-! The statements of the family of spec/41_transform_vertex.md, settled. -/

namespace Sys2Proof.Machine

/-- Settles O34: an element of a product with the identity is a sum whose other three terms are zeros. -/
theorem identityIsNeutralForProducts : Obligations.IdentityIsNeutralForProducts := fun m hm =>
  ⟨matMul_identity_left m hm, matMul_identity_right m hm⟩

/-- Settles O36: a 16-bit coordinate is converted exactly, and never to a negative zero. -/
theorem identityClipIsThePosition : Obligations.IdentityClipIsThePosition := by
  intro x y z
  have hplain (h : Half) : plainFloat (i2f h.toInt) :=
    plainFloat_i2f h.toInt ((natAbs_toInt_le h).trans (by decide))
  have hclip := clip_identity (hplain x) (hplain y) (hplain z)
  exact ⟨hclip 0, hclip 1, hclip 2, hclip 3⟩

end Sys2Proof.Machine
end

section
/-! SUPPORT. First use of a tile's texture with the whole next state (R184, R185), and what the commands that may realize
a texture leave of the tiles (R180, R236, R265). -/

namespace Sys2Proof.Machine

/-! First use -/

theorem State.release_of_no_tex {s : State} {t : Fin 8} (htex : (s.tileAt t).tex = none) : s.release t = s := by
  rcases s.release_cases t with ⟨-, he⟩ | ⟨_, hsome, -⟩
  · exact he
  · exact nomatch htex.symm.trans hsome

/-- A bound tile of positive size without a texture is given one at first use (R184, R185). -/
theorem State.ensureRealized_of_bound {s : State} {t : Fin 8} {loc : Nat} (htex : (s.tileAt t).tex = none)
    (hsrc : (s.tileAt t).src = some loc) (hw : 1 ≤ (s.tileAt t).width) (hh : 1 ≤ (s.tileAt t).height) :
    s.ensureRealized t = s.createTexture t (realizeBuffer s.mem s.tlut (s.tileAt t) loc) := by
  have hsame : ({ s.tileAt t with tex := none } : Tile) = s.tileAt t := by rw [← htex]
  rcases s.ensureRealized_cases t with ⟨-, hbad | hbad⟩ | ⟨-, -, he⟩
  · exact absurd htex hbad
  · exact nomatch hsrc.symm.trans hbad
  · rcases s.realize_cases t with ⟨-, hbad | hbad | hbad⟩ | ⟨loc', hloc, -, -, hr⟩
    · exact nomatch hsrc.symm.trans hbad
    · exact absurd hw (Int.not_le.mpr hbad)
    · exact absurd hh (Int.not_le.mpr hbad)
    · obtain rfl : loc = loc' := Option.some.inj (hsrc.symm.trans hloc)
      rw [he, hr, State.release_of_no_tex htex, hsame]

/-- First use changes nothing of a tile that is unbound, holds a texture, or has no positive size (R184, R185). -/
theorem State.ensureRealized_of_not_bound {s : State} {t : Fin 8}
    (h : (s.tileAt t).src = none ∨ (s.tileAt t).tex ≠ none ∨ (s.tileAt t).width < 1 ∨ (s.tileAt t).height < 1) :
    s.ensureRealized t = s := by
  rcases s.ensureRealized_cases t with ⟨he, -⟩ | ⟨htex, hsrc, he⟩
  · exact he
  · rcases s.realize_cases t with ⟨hr, -⟩ | ⟨_, -, hw, hh, -⟩
    · rw [he, hr, State.release_of_no_tex htex]
    · rcases h with hnone | hsome | hsmall | hsmall
      · exact absurd hnone hsrc
      · exact absurd htex hsome
      · exact absurd hw (Int.not_le.mpr hsmall)
      · exact absurd hh (Int.not_le.mpr hsmall)

/-! A rectangle over a bound tile -/

/-- Taking the continuation and creating a texture write different registers (R185, R236). -/
theorem State.takeContinuation_createTexture (s : State) (t : Fin 8) (buf : List Byte) :
    (s.createTexture t buf).takeContinuation = s.takeContinuation.createTexture t buf := by
  cases hs : s.stack with
  | nil =>
    have hkeep : ∀ r : State, r.stack = [] → r.takeContinuation = r := fun r hr => by
      simp only [State.takeContinuation, hr]
    rw [hkeep s hs, hkeep (s.createTexture t buf) hs]
  | cons f fs =>
    rw [s.takeContinuation_cons f fs hs, (s.createTexture t buf).takeContinuation_cons f fs hs]
    rfl

theorem State.tileAt_createTexture_same (s : State) (t : Fin 8) (buf : List Byte) :
    (s.createTexture t buf).tileAt t = { s.tileAt t with tex := some s.nextHandle } :=
  State.tileAt_setTex_same _ _ _

/-- A textured rectangle over a bound tile of positive size without a texture is the rectangle after its creation (R184,
R236). -/
theorem State.texrect_of_bound {s : State} {t : Fin 8} {loc : Nat} (htex : (s.tileAt t).tex = none)
    (hsrc : (s.tileAt t).src = some loc) (hw : 1 ≤ (s.tileAt t).width) (hh : 1 ≤ (s.tileAt t).height)
    (lrx lry ulx uly : BitVec 12) :
    s.texrect lrx lry t ulx uly =
      (s.createTexture t (realizeBuffer s.mem s.tlut (s.tileAt t) loc)).texrect lrx lry t ulx uly := by
  have hat := s.tileAt_takeContinuation t
  have hfirst : s.takeContinuation.ensureRealized t =
      s.takeContinuation.createTexture t (realizeBuffer s.mem s.tlut (s.tileAt t) loc) := by
    rw [State.ensureRealized_of_bound (by rwa [hat]) (by rwa [hat]) (by rwa [hat]) (by rwa [hat]), hat,
      s.takeContinuation_frame]
  rw [State.texrect, State.texrect, State.takeContinuation_createTexture, hfirst,
    State.ensureRealized_of_tex (congrArg Tile.tex (State.tileAt_createTexture_same _ t _))]

/-- A rectangle's events: its one quad between the two depth-test events (R231). -/
theorem State.emitRect_out (s : State) (tex : Option Handle) (x0 y0 x1 y1 u0 v0 u1 v1 : F32) (c : Rgba) :
    (s.emitRect tex x0 y0 x1 y1 u0 v0 u1 v1 c).out = s.out ++
      [.setDepthTest false,
       .drawQuad tex (rectVertex x0 y0 u0 v0 c) (rectVertex x1 y0 u1 v0 c) (rectVertex x1 y1 u1 v1 c)
         (rectVertex x0 y1 u0 v1 c),
       .setDepthTest true] := by
  simp [State.emitRect]

theorem State.drawTexrect_out (s : State) (d : Tile) (h : Handle) (lrx lry ulx uly : BitVec 12) :
    ∃ v0 v1 v2 v3, (s.drawTexrect d h lrx lry ulx uly).out =
      s.out ++ [.setDepthTest false, .drawQuad (some h) v0 v1 v2 v3, .setDepthTest true] :=
  ⟨_, _, _, _, s.emitRect_out _ _ _ _ _ _ _ _ _ _⟩

/-! A triangle -/

/-- A triangle that names no entry of the cache is dropped (R261, R265). -/
theorem State.emitTri_of_out_of_range (s : State) (f0 f1 f2 : BitVec 8)
    (h : 128 ≤ f0.toNat ∨ 128 ≤ f1.toNat ∨ 128 ≤ f2.toNat) : s.emitTri f0 f1 f2 = s := by
  have hrange : ∀ {f : BitVec 8} {p : VtxEntry}, s.vc[cacheIndex f]? = some p → f.toNat < 128 := by
    intro f p hp
    obtain ⟨hlt, -⟩ := Vector.getElem?_eq_some_iff.mp hp
    simp only [cacheIndex, Config.vcSize] at hlt
    omega
  rcases s.emitTri_cases f0 f1 f2 with he | ⟨a, b, c, ha, hb, hc, -⟩
  · exact he
  · have := hrange ha
    have := hrange hb
    have := hrange hc
    omega

/-- A triangle of three vertices that the guard keeps is emitted after first use of tile 0 (R265). -/
theorem State.emitTri_of_kept {s : State} {f0 f1 f2 : BitVec 8} {a b c : VtxEntry}
    (ha : s.vc[cacheIndex f0]? = some a) (hb : s.vc[cacheIndex f1]? = some b) (hc : s.vc[cacheIndex f2]? = some c)
    (hka : skipped s.params.wEpsilon a = false) (hkb : skipped s.params.wEpsilon b = false)
    (hkc : skipped s.params.wEpsilon c = false) :
    s.emitTri f0 f1 f2 =
      (s.ensureRealized 0).emit
        (.drawTriangle (s.ensureRealized 0).legacyTex (screen a) (screen b) (screen c)) := by
  simp [State.emitTri, ha, hb, hc, hka, hkb, hkc]

/-! Frames of the tiles -/

/-- Of the tiles, `t` differs from `s` at most in the texture of tile `j`. -/
structure State.SameTilesButTex (j : Fin 8) (s t : State) : Prop where
  other : ∀ k, k ≠ j → t.tileAt k = s.tileAt k
  selected : t.tileAt j = { s.tileAt j with tex := (t.tileAt j).tex }

theorem State.SameTilesButTex.of_tile_eq {j : Fin 8} {s t : State} (h : t.tile = s.tile) : s.SameTilesButTex j t := by
  have hat : ∀ k, t.tileAt k = s.tileAt k := fun k => by rw [State.tileAt, h, State.tileAt]
  exact ⟨fun k _ => hat k, by rw [hat]⟩

theorem State.SameTilesButTex.trans {j : Fin 8} {s r t : State} (h : s.SameTilesButTex j r)
    (h' : r.SameTilesButTex j t) : s.SameTilesButTex j t :=
  ⟨fun k hk => (h'.other k hk).trans (h.other k hk), by rw [h'.selected, h.selected]⟩

theorem State.realize_tiles (s : State) (j : Fin 8) : s.SameTilesButTex j (s.realize j) := by
  refine ⟨fun k hk => ?_, ?_⟩
  · obtain ⟨_, he⟩ := s.tileAt_realize j k
    rw [he, if_neg hk.symm]
  · obtain ⟨_, he⟩ := s.tileAt_realize j j
    rw [he, if_pos rfl]

theorem State.ensureRealized_tiles (s : State) (j : Fin 8) : s.SameTilesButTex j (s.ensureRealized j) := by
  rcases s.ensureRealized_cases j with ⟨he, -⟩ | ⟨-, -, he⟩ <;> rw [he]
  · exact .of_tile_eq rfl
  · exact s.realize_tiles j

theorem State.emitTri_tiles (s : State) (f0 f1 f2 : BitVec 8) : s.SameTilesButTex 0 (s.emitTri f0 f1 f2) := by
  rcases s.emitTri_cases f0 f1 f2 with he | ⟨_, _, _, -, -, -, -, -, -, he⟩ <;> rw [he]
  · exact .of_tile_eq rfl
  · exact (s.ensureRealized_tiles 0).trans (.of_tile_eq rfl)

theorem State.texrect_tiles (s : State) (lrx lry : BitVec 12) (j : Fin 8) (ulx uly : BitVec 12) :
    s.SameTilesButTex j (s.texrect lrx lry j ulx uly) := by
  have hr : s.SameTilesButTex j (s.takeContinuation.ensureRealized j) :=
    .trans (.of_tile_eq s.takeContinuation_tile) (State.ensureRealized_tiles _ j)
  rcases s.texrect_cases lrx lry j ulx uly with ⟨he, -⟩ | ⟨_, -, -, -, he⟩ <;> rw [he]
  · exact hr
  · exact hr.trans (.of_tile_eq (State.drawTexrect_tile _ _ _ _ _ _ _))

/-- SETTILESIZE leaves the tiles it does not select, whether it rebuilds or binds (R180). -/
theorem execSettilesize_other {s t : State} {uls ult lrs lrt : BitVec 12} {tile : BitVec 3} {k : Fin 8}
    (h : execSettilesize uls ult tile lrs lrt s = .next t) (hk : tile.toFin ≠ k) : t.tileAt k = s.tileAt k := by
  have hbounds : (s.setBounds tile.toFin uls ult lrs lrt).tileAt k = s.tileAt k :=
    State.tileAt_setTile_other _ _ _ _ hk
  rcases execSettilesize_cases uls ult tile lrs lrt s with ⟨-, he⟩ | ⟨-, he⟩ <;>
    obtain rfl := Host.Outcome.next.inj (he.symm.trans h)
  · exact ((State.realize_tiles _ _).other k hk.symm).trans hbounds
  · exact (State.tileAt_setTile_other _ _ _ _ hk).trans hbounds

end Sys2Proof.Machine
end

section
/-! The statements of the family of spec/42_tile_texture.md, settled. -/

namespace Sys2Proof.Machine

/-- Settles O22: a command writes one descriptor, realizes one tile, or has a frame without tiles. -/
theorem otherTilesAreUntouched : Obligations.OtherTilesAreUntouched := by
  intro i s t k h hk
  have hne : ∀ {j : Fin 8}, some j ≠ some k → j ≠ k := mt (congrArg some)
  have hf := exec_frame h
  cases i
  case settile | loadtile | loadblock =>
    obtain rfl : _ = t := Host.Outcome.next.inj h
    exact State.tileAt_setTile_other _ _ _ _ (hne hk)
  case settilesize => exact execSettilesize_other h (hne hk)
  case texrect | texrectm =>
    obtain rfl : _ = t := Host.Outcome.next.inj h
    exact (s.texrect_tiles _ _ _ _ _).other k (hne hk).symm
  case tri1 =>
    obtain rfl : _ = t := Host.Outcome.next.inj h
    exact (s.emitTri_tiles _ _ _).other k (hne hk).symm
  case tri2 | quad =>
    obtain rfl : _ = t := Host.Outcome.next.inj h
    exact ((s.emitTri_tiles _ _ _).trans (State.emitTri_tiles _ _ _ _)).other k (hne hk).symm
  all_goals exact congrArg (·[k]) (congrArg State.tile hf :)

/-- Settles O46: entry `b` of the palette is the 16-bit unit `b` of the image it was loaded from. -/
theorem ci8AfterLoadtlutIsRgba16 : Obligations.Ci8AfterLoadtlutIsRgba16 := by
  intro s t tile cnt loc src k pal pal' hres hexec hbyte
  rcases execLoadtlut_cases tile cnt s with ⟨hnone, -⟩ | ⟨loc', hloc, he⟩
  · exact nomatch hres.symm.trans hnone
  · obtain rfl : loc = loc' := Option.some.inj (hres.symm.trans hloc)
    obtain rfl := Host.Outcome.next.inj (he.symm.trans hexec)
    have hentry := loadTlut_getElem s.mem loc s.tlut (tlutCount cnt) (Memory.byte s.mem (src + k)).toFin
    rw [if_pos ((lt_tlutCount_iff cnt _).mpr hbyte)] at hentry
    exact congrArg rgba16 hentry

/-- Settles O53: the rectangle is that of the state after the creation, whose tile holds the handle answered. -/
theorem texrectRealizesABoundTileAtFirstUse : Obligations.TexrectRealizesABoundTileAtFirstUse := by
  intro s f fs lrx lry ulx uly tile k loc hstack hk htex hsrc hw hh realized
  obtain rfl : tile.toFin = k := Fin.ext hk.symm
  have hfirst : s.texrect lrx lry tile.toFin ulx uly = realized.texrect lrx lry tile.toFin ulx uly :=
    State.texrect_of_bound htex hsrc hw hh lrx lry ulx uly
  have hat : realized.tileAt tile.toFin = { s.tileAt tile.toFin with tex := some s.nextHandle } :=
    State.tileAt_createTexture_same _ _ _
  have hdraw := State.texrect_of_realized (s := realized) (congrArg Tile.tex hat) (by rwa [hat]) (by rwa [hat])
    lrx lry ulx uly
  obtain ⟨v0, v1, v2, v3, hout⟩ :=
    realized.takeContinuation.drawTexrect_out (realized.tileAt tile.toFin) s.nextHandle lrx lry ulx uly
  refine ⟨realized.texrect lrx lry tile.toFin ulx uly, v0, v1, v2, v3, congrArg Host.Outcome.next hfirst,
    congrArg Host.Outcome.next hfirst, rfl, ?_⟩
  rw [hdraw, hout, State.takeContinuation_out]

/-- Settles O56: an index out of range or a guarded vertex drops the triangle; a kept one is drawn after first use of
tile 0, which does nothing or creates its texture. -/
theorem tri1EmitsOrDropsItsTriangle : Obligations.Tri1EmitsOrDropsItsTriangle := by
  intro s i0 i1 i2
  refine ⟨fun h => congrArg Host.Outcome.next (s.emitTri_of_out_of_range i0 i1 i2 h), fun a b c ha hb hc =>
    ⟨fun h => ?_, fun hka hkb hkc => ?_⟩⟩
  · refine congrArg Host.Outcome.next ?_
    rcases h with h | h | h
    · exact s.emitTri_of_skipped i0 i1 i2 a (.inl ha) h
    · exact s.emitTri_of_skipped i0 i1 i2 b (.inr (.inl hb)) h
    · exact s.emitTri_of_skipped i0 i1 i2 c (.inr (.inr hc)) h
  · have hemit := State.emitTri_of_kept ha hb hc hka hkb hkc
    refine ⟨fun h => ?_, fun loc htex hsrc hw hh => ?_⟩
    · rw [exec_tri1, hemit, State.ensureRealized_of_not_bound h]
      rfl
    · rw [exec_tri1, hemit, State.ensureRealized_of_bound htex hsrc hw hh, State.createTexture_eq, State.emit,
        List.append_assoc]
      rfl

/-- Settles O58: each triangle writes at most what the first use of tile 0 writes, and the trace. -/
theorem trianglesWriteOnlyTileZerosTexture : Obligations.TrianglesWriteOnlyTileZerosTexture := by
  intro i s t hop h
  have hframe := exec_frame h
  have hboth : s.sameButTextures t ∧ s.SameTilesButTex 0 t := by
    cases i
    case tri1 i0 i1 i2 =>
      obtain rfl : _ = t := Host.Outcome.next.inj h
      exact ⟨hframe, s.emitTri_tiles i0 i1 i2⟩
    case tri2 | quad =>
      obtain rfl : _ = t := Host.Outcome.next.inj h
      exact ⟨hframe, (s.emitTri_tiles _ _ _).trans (State.emitTri_tiles _ _ _ _)⟩
    all_goals exact absurd hop (by simp [Instr.opcode])
  obtain ⟨hregs, htiles⟩ := hboth
  exact ⟨hregs, htiles.other, htiles.selected⟩

end Sys2Proof.Machine
end

section
/-! SUPPORT. The texel decode rules as arithmetic on the unit, byte or nibble fetched (R201 to R209, R212, R213), and
the pairs that no rule decodes (R210). -/

namespace Sys2Proof.Machine

/-- The four channels of a colour as numbers. -/
def Rgba.channels (c : Rgba) : Nat × Nat × Nat × Nat := (c.r.toNat, c.g.toNat, c.b.toNat, c.a.toNat)

/-! What is fetched (R201) -/

theorem texUnit16_toNat (m : Memory) (loc k : Nat) :
    (texUnit16 m loc k).toNat =
      256 * (Memory.byte m (loc + 2 * k)).toNat + (Memory.byte m (loc + 2 * k + 1)).toNat :=
  Memory.read2_toNat m (loc + 2 * k)

theorem highNibble_toNat (b : Byte) : (b.extractLsb' 4 4).toNat = b.toNat / 16 := by
  rw [BitVec.extractLsb'_toNat, Nat.shiftRight_eq_div_pow]
  omega

theorem lowNibble_toNat (b : Byte) : (b.extractLsb' 0 4).toNat = b.toNat % 16 := by
  rw [BitVec.extractLsb'_toNat, Nat.shiftRight_zero]

theorem texNib_toNat (m : Memory) (loc k : Nat) :
    (texNib m loc k).toNat =
      if k % 2 = 0 then (Memory.byte m (loc + k / 2)).toNat / 16 else (Memory.byte m (loc + k / 2)).toNat % 16 := by
  unfold texNib
  split
  · exact highNibble_toNat _
  · exact lowNibble_toNat _

/-! Widening a field to a channel (R202, R213) -/

theorem fiveBit_toNat (v : Half) (lo : Nat) : (fiveBit v lo).toNat = 8 * (v.toNat / 2 ^ lo % 32) := by
  simp only [fiveBit, BitVec.toNat_shiftLeft, BitVec.toNat_setWidth, BitVec.extractLsb'_toNat,
    Nat.shiftRight_eq_div_pow, Nat.shiftLeft_eq]
  omega

/-- One nibble above another is a byte: a nibble repeated (R213), and a palette index (R209). -/
theorem nibblePair_toNat (hi lo : BitVec 4) :
    ((hi.setWidth 8 <<< 4) ||| lo.setWidth 8).toNat = 16 * hi.toNat + lo.toNat := by
  have hor : hi.toNat <<< 4 ||| lo.toNat = hi.toNat <<< 4 + lo.toNat := (Nat.shiftLeft_add_eq_or_of_lt lo.isLt _).symm
  simp only [BitVec.toNat_or, BitVec.toNat_shiftLeft, BitVec.toNat_setWidth]
  rw [Nat.mod_eq_of_lt (a := hi.toNat) (by omega), Nat.mod_eq_of_lt (a := lo.toNat) (by omega),
    Nat.mod_eq_of_lt (by rw [Nat.shiftLeft_eq]; omega), hor, Nat.shiftLeft_eq]
  omega

theorem rep4_toNat (n : BitVec 4) : (rep4 n).toNat = 17 * n.toNat := by
  rw [rep4, nibblePair_toNat]
  omega

theorem rep3_toNat (i : BitVec 3) : (rep3 i).toNat = 36 * i.toNat + i.toNat / 2 := by
  decide +revert

theorem bit255_toNat {w : Nat} (v : BitVec w) : (bit255 (v.getLsbD 0)).toNat = 255 * (v.toNat % 2) := by
  have hbit : v.getLsbD 0 = decide (v.toNat % 2 = 1) := by rw [BitVec.getLsbD, Nat.testBit_zero]
  rw [hbit, bit255]
  rcases Nat.mod_two_eq_zero_or_one v.toNat with h | h <;> simp [h]

/-! The decode rules, channel by channel (R202 to R207, R212) -/

theorem rgba16_channels (v : Half) :
    (rgba16 v).channels =
      (8 * (v.toNat / 2048 % 32), 8 * (v.toNat / 64 % 32), 8 * (v.toNat / 2 % 32), 255 * (v.toNat % 2)) := by
  simp only [rgba16, Rgba.channels, fiveBit_toNat, bit255_toNat, Nat.reducePow]

theorem texIA16_channels (v : Half) :
    (texIA16 v).channels = (v.toNat / 256, v.toNat / 256, v.toNat / 256, v.toNat % 256) := by
  have hhigh : (v.extractLsb' 8 8).toNat = v.toNat / 256 := by
    rw [BitVec.extractLsb'_toNat, Nat.shiftRight_eq_div_pow]
    omega
  have hlow : (v.extractLsb' 0 8).toNat = v.toNat % 256 := by
    rw [BitVec.extractLsb'_toNat, Nat.shiftRight_zero]
  simp only [texIA16, Rgba.channels, hhigh, hlow]

theorem texIA8_channels (b : Byte) :
    (texIA8 b).channels =
      (17 * (b.toNat / 16), 17 * (b.toNat / 16), 17 * (b.toNat / 16), 17 * (b.toNat % 16)) := by
  simp only [texIA8, Rgba.channels, rep4_toNat, highNibble_toNat, lowNibble_toNat]

theorem texIA4_channels (n : BitVec 4) :
    (texIA4 n).channels =
      (36 * (n.toNat / 2) + n.toNat / 4, 36 * (n.toNat / 2) + n.toNat / 4, 36 * (n.toNat / 2) + n.toNat / 4,
       255 * (n.toNat % 2)) := by
  have hhigh : (n.extractLsb' 1 3).toNat = n.toNat / 2 := by
    rw [BitVec.extractLsb'_toNat, Nat.shiftRight_eq_div_pow]
    omega
  simp only [texIA4, Rgba.channels, rep3_toNat, bit255_toNat, hhigh, Nat.div_div_eq_div_mul]

theorem texI4_channels (n : BitVec 4) :
    (texI4 n).channels = (17 * n.toNat, 17 * n.toNat, 17 * n.toNat, 255) := by
  simp only [texI4, Rgba.channels, rep4_toNat]
  rfl

/-! The palette (R208, R209) -/

theorem texCI8_of_getElem? {tlut : Vector (BitVec 16) Config.tlutSize} {b : Byte} {u : Half}
    (h : tlut[b.toNat]? = some u) : texCI8 tlut b = rgba16 u := by
  obtain ⟨_, rfl⟩ := Vector.getElem?_eq_some_iff.mp h
  rfl

theorem texCI4_of_getElem? {tlut : Vector (BitVec 16) Config.tlutSize} {palette n : BitVec 4} {u : Half}
    (h : tlut[16 * palette.toNat + n.toNat]? = some u) : texCI4 tlut palette n = rgba16 u :=
  texCI8_of_getElem? (by rwa [nibblePair_toNat])

/-! The pairs without a rule (R200, R210) -/

theorem texelKind_eq_diagnostic_iff (fmt : BitVec 3) (siz : BitVec 2) :
    texelKind fmt siz = .diagnostic ↔
      (fmt.toNat, siz.toNat) ∉ [(0, 2), (0, 3), (3, 2), (3, 1), (3, 0), (4, 1), (4, 0), (2, 1), (2, 0)] := by
  decide +revert

theorem decodeTexel_of_diagnostic {fmt : BitVec 3} {siz : BitVec 2} (h : texelKind fmt siz = .diagnostic)
    (m : Memory) (tlut : Vector (BitVec 16) Config.tlutSize) (palette : BitVec 4) (loc k : Nat) :
    decodeTexel m tlut fmt siz palette loc k = texDiag := by
  rw [decodeTexel, h]

end Sys2Proof.Machine
end

section
/-! The statements of the family of spec/43_texel_decode.md, settled. -/

namespace Sys2Proof.Machine

/-- Settles O48: a pair outside the nine has no decode rule, so it decodes to the diagnostic colour. -/
theorem otherTexelPairsAreMagenta : Obligations.OtherTexelPairsAreMagenta := by
  intro fmt siz hpair m tlut pal loc k
  exact decodeTexel_of_diagnostic ((texelKind_eq_diagnostic_iff fmt siz).mpr hpair) m tlut pal loc k

/-- Settles O47: the numbers `v`, `b` and `n` are those of what is fetched, and each pair decodes by its rule. -/
theorem texelFormatsDecodeAsTheTable : Obligations.TexelFormatsDecodeAsTheTable := by
  intro m tlut pal loc k v b n hv hb hn
  obtain rfl : (texUnit16 m loc k).toNat = v := (texUnit16_toNat m loc k).trans hv.symm
  obtain rfl : (texByte m loc k).toNat = b := hb.symm
  obtain rfl : (texNib m loc k).toNat = n := (texNib_toNat m loc k).trans hn.symm
  refine ⟨rgba16_channels _, rfl, texIA16_channels _, texIA8_channels _, texIA4_channels _, rfl, texI4_channels _,
    fun u hu => ?ci8, fun u hu => ?ci4⟩
  case ci8 => exact (congrArg Rgba.channels (texCI8_of_getElem? hu)).trans (rgba16_channels u)
  case ci4 => exact (congrArg Rgba.channels (texCI4_of_getElem? hu)).trans (rgba16_channels u)

end Sys2Proof.Machine
end

section
/-! SUPPORT. A rectangle that draws nothing (R243), and the fill colour as numbers (R233). -/

namespace Sys2Proof.Machine

/-- A tile with neither texture nor source, or of no positive size, is not drawn, and no texture is made for it (R184,
R243). -/
theorem State.texrect_of_not_drawable {s : State} {t : Fin 8}
    (h : ((s.tileAt t).tex = none ∧ (s.tileAt t).src = none) ∨ (s.tileAt t).width < 1 ∨ (s.tileAt t).height < 1)
    (lrx lry ulx uly : BitVec 12) : s.texrect lrx lry t ulx uly = s.takeContinuation := by
  have hat := s.tileAt_takeContinuation t
  have hfirst : s.takeContinuation.ensureRealized t = s.takeContinuation := by
    refine State.ensureRealized_of_not_bound ?_
    rw [hat]
    rcases h with ⟨-, hsrc⟩ | hsmall
    · exact .inl hsrc
    · exact .inr (.inr hsmall)
  have hcases := s.texrect_cases lrx lry t ulx uly
  simp only [hfirst, hat] at hcases
  rcases hcases with ⟨he, -⟩ | ⟨_, htex, hw, hh, -⟩
  · exact he
  · rcases h with ⟨hnone, -⟩ | hsmall | hsmall
    · exact nomatch htex.symm.trans hnone
    · exact absurd hw (Int.not_le.mpr hsmall)
    · exact absurd hh (Int.not_le.mpr hsmall)

/-- The 5-5-5 colour of the low half (R233). -/
theorem fillColor_channels (fill : Word) :
    (fillColor fill).channels =
      (8 * (fill.toNat / 2048 % 32), 8 * (fill.toNat / 64 % 32), 8 * (fill.toNat / 2 % 32), 255) := by
  have hlow : (field fill 0 16).toNat = fill.toNat % 2 ^ 16 := by
    rw [field, BitVec.extractLsb'_toNat, Nat.shiftRight_zero]
  simp only [fillColor, Rgba.channels, fiveBit_toNat, hlow, Prod.mk.injEq]
  refine ⟨?_, ?_, ?_, rfl⟩ <;> omega

end Sys2Proof.Machine
end

section
/-! SUPPORT. The float values of a textured rectangle with unit steps: pixel extents are exact and no negative zeros, so a
step of 1.0 from +0.0 ends at the extent; and +0.0 over a tile's size is +0.0 (R10, R236). -/

namespace Sys2Proof.Machine

theorem fsign_i2f_of_nonneg {n : Int} (hn : 0 ≤ n) : fsign (i2f n) = false := by
  rw [i2f, fsign_roundRatio, decide_eq_false_iff_not]
  exact Int.not_lt.mpr hn

/-- A pixel coordinate is exact, and never negative (R230). -/
theorem px_exact (f : BitVec 12) :
    fisFinite (px f) = true ∧ fsign (px f) = false ∧ fval (px f) = f.toNat * 2 ^ 147 := by
  have hn : (f.toNat : Int).natAbs ≤ 2 ^ 24 := by have := f.isLt; omega
  obtain ⟨hfin, -⟩ := i2f_exact f.toNat hn
  obtain ⟨hfin4, hsign4, -, hval4⟩ := i2f_two_pow 2 (by decide)
  obtain ⟨hfinPx, hvalPx⟩ := fdiv_i2f_two_pow f.toNat 2 hn (by decide)
  refine ⟨hfinPx, ?_, hvalPx⟩
  have hdiv := fdiv_finite hfin hfin4 (by rw [hval4]; positivity)
  rw [fsign_i2f_of_nonneg (Int.natCast_nonneg _), hsign4] at hdiv
  exact (congrArg fsign hdiv).trans (fsign_roundRatio _ _ _)

/-- The extent between two pixel coordinates is exact, and +0.0 when they are equal. -/
theorem plainFloat_fsub_px (hi lo : BitVec 12) : plainFloat (fsub (px hi) (px lo)) := by
  obtain ⟨hfinHi, hsignHi, hvalHi⟩ := px_exact hi
  obtain ⟨hfinLo, -, hvalLo⟩ := px_exact lo
  have hfinNeg : fisFinite (fneg (px lo)) = true := by rwa [fisFinite_fneg]
  have hsum : fval (px hi) + fval (fneg (px lo)) = ((hi.toNat : Int) - lo.toNat) * 2 ^ 147 := by
    rw [fval_fneg, hvalHi, hvalLo]
    ring
  have hround := roundsTo_faddAs .sub (px hi) (px lo) hfinHi hfinNeg
  rw [hsum] at hround
  have hsmall : ((hi.toNat : Int) - lo.toNat).natAbs ≤ 2 ^ 24 := by
    have := hi.isLt
    have := lo.isLt
    omega
  obtain ⟨hfin, hval⟩ := hround.exact_scaled (by positivity) _ 147 hsmall (by decide) (by push_cast; ring)
  refine ⟨hfin, fun hneg => ?_⟩
  have hzero : fval (px hi) + fval (fneg (px lo)) = 0 := by
    rw [hsum, ← hval]
    exact (congrArg fval hneg).trans (by decide)
  have hsign := fsign_faddAs_of_zero .sub (px hi) (px lo) hfinHi hfinNeg hzero
  rw [hsignHi, Bool.false_and] at hsign
  exact absurd (hsign.symm.trans (congrArg fsign hneg)) (by decide)

/-- An axis that starts at +0.0 and steps 1024 units of 1/1024 a pixel ends at its extent in pixels (R236). -/
theorem unit_step_px (hi lo : BitVec 12) :
    fadd 0#32 (fmul (fdiv (i2f 1024) (i2f 1024)) (fsub (px hi) (px lo))) = fsub (px hi) (px lo) := by
  have hone : fdiv (i2f 1024) (i2f 1024) = 0x3F800000#32 := by decide +kernel
  have hplain := plainFloat_fsub_px hi lo
  rw [hone, fmul_one_left hplain.1, fadd_zero_left hplain (by decide)]

theorem fdiv_zero_left {b : F32} (hnan : fisNaN b = false) (hsign : fsign b = false) (hzero : fisZero b = false) :
    fdiv 0#32 b = 0#32 := by
  have hnum : fisNaN 0#32 = false ∧ fisInf 0#32 = false ∧ fsign 0#32 = false ∧ fmag 0#32 = 0 := by decide
  obtain ⟨hnan0, hinf0, hsign0, hmag0⟩ := hnum
  cases hinf : fisInf b <;>
    simp only [fdiv, hnan0, hinf0, hsign0, hmag0, hnan, hsign, hzero, hinf, roundRatio_zero, Bool.or_self,
      Bool.false_eq_true, if_false, if_true] <;> rfl

/-- A tile's size of any magnitude is no zero as a float, though it may be an infinity, and +0.0 over it is +0.0. -/
theorem fdiv_zero_i2f {n : Int} (hn : 1 ≤ n) : fdiv 0#32 (i2f n) = 0#32 := by
  refine fdiv_zero_left (roundsTo_i2f n).not_nan (fsign_i2f_of_nonneg (by omega)) ?_
  have hbits := le_roundBits (n.natAbs * 2 ^ 149) 1 (by omega)
  rw [fisZero, decide_eq_false_iff_not, i2f, fmagBits_roundRatio]
  omega

end Sys2Proof.Machine
end

section
/-! SUPPORT. The two textured rectangle commands beside each other: one meaning, and opcodes one bit apart (R237). -/

namespace Sys2Proof

/-- Bits turned over in one part of a word are turned over in the word, where the other part has none of them. -/
theorem xor_or_of_and_eq_zero (a p m : Word) (h : p &&& m = 0#32) : (a ^^^ m) ||| p = (a ||| p) ^^^ m := by
  ext i hi
  have hbit : (p[i] && m[i]) = false := by rw [← BitVec.getElem_and, h, BitVec.getElem_zero]
  cases hm : m[i]
  case false => simp [hm]
  case true =>
    rw [hm, Bool.and_true] at hbit
    simp [hm, hbit]

/-- Two coordinates have no part in the lowest bit of the opcode byte (R94). -/
theorem pair_and_opcodeBit (a b : BitVec 12) : pair a b &&& 0x01000000#32 = 0#32 := by
  rw [pair, Laws.or_and_mask]
  exact ⟨put_and_mask a 12 _ (by decide), put_and_mask b 0 _ (by decide)⟩

namespace Machine

theorem exec_texrectm (lrx lry ulx uly : BitVec 12) (tile : BitVec 3) (s : State) :
    exec (.texrectm lrx lry tile ulx uly) s = exec (.texrect lrx lry tile ulx uly) s := rfl

theorem exec_texrect (lrx lry ulx uly : BitVec 12) (tile : BitVec 3) (s : State) :
    exec (.texrect lrx lry tile ulx uly) s = .next (s.texrect lrx lry tile.toFin ulx uly) := rfl

end Machine

end Sys2Proof
end

section
/-! The statements of the family of spec/44_rect_fill.md, settled. -/

namespace Sys2Proof.Machine

/-- Settles O50: the colour's channels are those of the low half, and the three events are one after another. -/
theorem fillrectDrawsUnlessSentinel : Obligations.FillrectDrawsUnlessSentinel := by
  intro s lrx lry ulx uly
  refine ⟨fun hfill => congrArg Host.Outcome.next (if_pos hfill), fun hfill => ⟨fillColor s.fill, ?_⟩⟩
  have hcolour := fillColor_channels s.fill
  simp only [Rgba.channels, Prod.mk.injEq] at hcolour
  obtain ⟨hr, hg, hb, -⟩ := hcolour
  refine ⟨hr, hg, hb, rfl, congrArg Host.Outcome.next ((if_neg hfill).trans ?_)⟩
  simp only [State.emitRect, State.emit, List.append_assoc]
  rfl

/-- Settles O52: the continuation is taken, and there is nothing to realize or to draw. -/
theorem texrectWithoutATextureDrawsNothing : Obligations.TexrectWithoutATextureDrawsNothing := by
  intro s f fs lrx lry ulx uly tile k hstack hk hground t
  obtain rfl : tile.toFin = k := Fin.ext hk.symm
  have hcont : f.base + 8 * (f.cursor + 1) + 4 = f.base + 8 * f.cursor + 12 := by omega
  have hexec : exec (.texrect lrx lry tile ulx uly) s = .next t := by
    rw [exec_texrect, State.texrect_of_not_drawable hground, s.takeContinuation_cons f fs hstack, hcont]
  exact ⟨hexec, (exec_texrectm ..).trans hexec⟩

/-- Settles O55: the quad of a realized tile, its origin +0.0 on both axes and its steps 1.0. -/
theorem unitStepIsOneTexelPerPixel : Obligations.UnitStepIsOneTexelPerPixel := by
  intro s f fs lrx lry ulx uly tile k h u1 v1 hstack hk htex hw hh hc0 hc1 hu1 hv1 white
  have horigin : fdiv (i2f ((0#32).extractLsb' 16 16).toInt) (i2f 32) = 0#32 ∧
      fdiv (i2f ((0#32).extractLsb' 0 16).toInt) (i2f 32) = 0#32 := by decide +kernel
  have hstep : ((0x04000400#32).extractLsb' 16 16).toInt = 1024 ∧ ((0x04000400#32).extractLsb' 0 16).toInt = 1024 := by
    decide
  obtain ⟨hs0, ht0⟩ := horigin
  obtain ⟨hds, hdt⟩ := hstep
  obtain ⟨hexec, hexecm⟩ := texrectDrawsARealizedTile s f fs lrx lry ulx uly tile k h 0#32 0x04000400#32 0#32 0#32
    (fsub (px lrx) (px ulx)) (fsub (px lry) (px uly)) _ _ hstack hk htex hw hh hc0.symm hc1.symm hs0.symm ht0.symm
    (by rw [hds, unit_step_px]) (by rw [hdt, unit_step_px]) rfl rfl
  refine ⟨_, hexec, hexecm, ?_⟩
  rw [fdiv_zero_i2f hw, fdiv_zero_i2f hh, ← hu1, ← hv1]

/-- Settles O54: the meaning is shared, and so is every bit below the opcode byte. -/
theorem texrectmIsTexrect : Obligations.TexrectmIsTexrect := by
  intro s lrx lry ulx uly tile
  have hcode : put Opcode.texrectm.code 24 = put Opcode.texrect.code 24 ^^^ 0x01000000#32 := by decide
  refine ⟨exec_texrectm .., ?_, rfl⟩
  calc put Opcode.texrectm.code 24 ||| pair lrx lry
      = (put Opcode.texrect.code 24 ^^^ 0x01000000#32) ||| pair lrx lry := by rw [hcode]
    _ = (put Opcode.texrect.code 24 ||| pair lrx lry) ^^^ 0x01000000#32 :=
      xor_or_of_and_eq_zero _ _ _ (pair_and_opcodeBit lrx lry)

end Sys2Proof.Machine
end

section
/-! SUPPORT. Integers held exactly through the arithmetic of the screen conversion, and that conversion at `w = 1.0`, where
the perspective division changes nothing (R10, R263). -/

namespace Sys2Proof.Machine

/-! Float arithmetic on integers of 24 bits -/

/-- The float value is the integer, exactly (values are in units of 2^-149). -/
def HoldsInt (a : F32) (n : Int) : Prop := fisFinite a = true ∧ fval a = n * 2 ^ 149

theorem holdsInt_i2f {n : Int} (hn : n.natAbs ≤ 2 ^ 24) : HoldsInt (i2f n) n := i2f_exact n hn

theorem holdsInt_i2f_half (h : Half) : HoldsInt (i2f h.toInt) h.toInt :=
  holdsInt_i2f ((natAbs_toInt_le h).trans (by decide))

theorem HoldsInt.fmul {a b : F32} {m n : Int} (ha : HoldsInt a m) (hb : HoldsInt b n)
    (hmn : (m * n).natAbs ≤ 2 ^ 24) : HoldsInt (fmul a b) (m * n) := by
  obtain ⟨hfinA, hvalA⟩ := ha
  obtain ⟨hfinB, hvalB⟩ := hb
  have hround := roundsTo_fmul hfinA hfinB
  rw [hvalA, hvalB] at hround
  refine hround.exact_scaled (by positivity) (m * n) 149 hmn (by decide) ?_
  rw [Nat.pow_add 2 149 149]
  push_cast
  ring

theorem HoldsInt.fadd {a b : F32} {m n : Int} (ha : HoldsInt a m) (hb : HoldsInt b n)
    (hmn : (m + n).natAbs ≤ 2 ^ 24) : HoldsInt (fadd a b) (m + n) := by
  obtain ⟨hfinA, hvalA⟩ := ha
  obtain ⟨hfinB, hvalB⟩ := hb
  have hround := roundsTo_faddAs .add a b hfinA hfinB
  rw [hvalA, hvalB, ← add_mul] at hround
  exact hround.exact_scaled (by positivity) (m + n) 149 hmn (by decide) (by push_cast; ring)

theorem HoldsInt.fsub {a b : F32} {m n : Int} (ha : HoldsInt a m) (hb : HoldsInt b n)
    (hmn : (m - n).natAbs ≤ 2 ^ 24) : HoldsInt (fsub a b) (m - n) := by
  obtain ⟨hfinA, hvalA⟩ := ha
  obtain ⟨hfinB, hvalB⟩ := hb
  have hround := roundsTo_faddAs .sub a b hfinA (show fisFinite (fneg b) = true by rwa [fisFinite_fneg])
  rw [fval_fneg, hvalA, hvalB, ← sub_eq_add_neg, ← sub_mul] at hround
  exact hround.exact_scaled (by positivity) (m - n) 149 hmn (by decide) (by push_cast; ring)

theorem holdsInt_halfW : HoldsInt Config.halfW 160 := ⟨by decide, by decide⟩

theorem holdsInt_halfH : HoldsInt Config.halfH 120 := ⟨by decide, by decide⟩

/-! The screen conversion -/

theorem i2f_one : i2f 1 = 0x3F800000#32 := by decide +kernel

theorem fmul_one_right {a : F32} (ha : fisFinite a = true) : fmul a 0x3F800000#32 = a :=
  (fmul_comm_of_finite ha (by decide)).trans (fmul_one_left ha)

/-- The reciprocal of 1.0 is 1.0, and a finite position times it stays as it is. -/
theorem screen_of_w_one {x y z : F32} (hx : fisFinite x = true) (hy : fisFinite y = true) (hz : fisFinite z = true)
    (u v : F32) (c : Rgba) :
    screen ⟨x, y, z, 0x3F800000#32, u, v, c⟩ =
      ⟨fadd Config.halfW (fmul x Config.halfW), fsub Config.halfH (fmul y Config.halfH), z, u, v, c⟩ := by
  have hinv : fdiv 0x3F800000#32 0x3F800000#32 = 0x3F800000#32 := by decide +kernel
  simp only [screen, i2f_one, hinv, fmul_one_right hx, fmul_one_right hy, fmul_one_right hz]

/-- A 16-bit integer on the horizontal axis: neither the product by 160 nor the sum leaves 24 bits. -/
theorem holdsInt_screen_x (x : Half) :
    HoldsInt (fadd Config.halfW (fmul (i2f x.toInt) Config.halfW)) (160 + 160 * x.toInt) := by
  have hx := natAbs_toInt_le x
  rw [mul_comm 160]
  exact holdsInt_halfW.fadd ((holdsInt_i2f_half x).fmul holdsInt_halfW (by omega)) (by omega)

/-- A 16-bit integer on the vertical axis, which the difference flips. -/
theorem holdsInt_screen_y (y : Half) :
    HoldsInt (fsub Config.halfH (fmul (i2f y.toInt) Config.halfH)) (120 - 120 * y.toInt) := by
  have hy := natAbs_toInt_le y
  rw [mul_comm 120]
  exact holdsInt_halfH.fsub ((holdsInt_i2f_half y).fmul holdsInt_halfH (by omega)) (by omega)

/-! Two triangles in one command -/

theorem exec_tri2 (i0 i1 i2 i3 i4 i5 : BitVec 8) (s : State) :
    exec (.tri2 i0 i1 i2 i3 i4 i5) s = .next ((s.emitTri i0 i1 i2).emitTri i3 i4 i5) := rfl

theorem exec_quad (i0 i1 i2 i3 i4 i5 : BitVec 8) (s : State) :
    exec (.quad i0 i1 i2 i3 i4 i5) s = .next ((s.emitTri i0 i1 i2).emitTri i3 i4 i5) := rfl

end Sys2Proof.Machine
end

section
/-! The statements of the family of spec/45_triangle.md, settled. -/

namespace Sys2Proof.Machine

/-- Settles O60: `screen` is the rule's order of operations; at `w = 1.0` its arithmetic is on integers of 24 bits. -/
theorem screenDividesByWAndFlipsTheVerticalAxis : Obligations.ScreenDividesByWAndFlipsTheVerticalAxis := by
  refine ⟨fun p => ?_, fun x y z u v c => ?_, fun u v c => ?_⟩
  · rw [screen, i2f_one]
    rfl
  · obtain ⟨hfinX, -⟩ := holdsInt_i2f_half x
    obtain ⟨hfinY, -⟩ := holdsInt_i2f_half y
    obtain ⟨hfinZ, -⟩ := holdsInt_i2f_half z
    rw [screen_of_w_one hfinX hfinY hfinZ]
    obtain ⟨hfinSx, hvalSx⟩ := holdsInt_screen_x x
    obtain ⟨hfinSy, hvalSy⟩ := holdsInt_screen_y y
    exact ⟨hfinSx, hvalSx, hfinSy, hvalSy, rfl⟩
  · have hcentreX : fadd Config.halfW (fmul 0#32 Config.halfW) = 0x43200000#32 := by decide +kernel
    have hcentreY : fsub Config.halfH (fmul 0#32 Config.halfH) = 0x42F00000#32 := by decide +kernel
    have hfin : fisFinite 0#32 = true := by decide
    rw [screen_of_w_one hfin hfin hfin, hcentreX, hcentreY]

/-- Settles O57: the second triangle starts from the state the first one answers. -/
theorem tri2AndQuadAreTwoTriangles : Obligations.Tri2AndQuadAreTwoTriangles := fun s i0 i1 i2 i3 i4 i5 =>
  ⟨s.emitTri i0 i1 i2, (s.emitTri i0 i1 i2).emitTri i3 i4 i5, exec_tri1 i0 i1 i2 s, exec_tri1 i3 i4 i5 _,
    exec_tri2 i0 i1 i2 i3 i4 i5 s, exec_quad i0 i1 i2 i3 i4 i5 s⟩

end Sys2Proof.Machine
end

section
/-! SUPPORT. The block between passes when none is asked for (R292), beside `State.betweenPasses_cons`. -/

namespace Sys2Proof.Machine

theorem State.betweenPasses_nil {s : State} (h : s.requests = []) : s.betweenPasses = s := by
  simp only [State.betweenPasses, h]

end Sys2Proof.Machine
end

section
/-! The statements of the family of spec/60_exceptions.md, settled. -/

namespace Sys2Proof.Machine

/-- Settles O14: by the cases of a step, and of a command by its constructor. -/
theorem everyStepAnswersANextState : Obligations.EveryStepAnswersANextState :=
  ⟨step_answers, exec_answers⟩

/-- Settles O27: with no list active the step is `betweenPasses`, which an empty queue leaves idle. -/
theorem idleBlockHoldsItsState : Obligations.IdleBlockHoldsItsState := by
  intro s hstack hrequests
  rw [step_of_no_list hstack, State.betweenPasses_nil hrequests]

end Sys2Proof.Machine
end

section
/-! SUPPORT. Placing a command where the next step fetches, and reading it back there: `cmd` against its two words (R8),
the bytes of an entry just written (R64, R66), and the frame the load leaves on top (notes/assumptions/1.md). -/

namespace Sys2Proof

@[simp] theorem extractLsb'_joinWords_high (w0 w1 : Word) : (joinWords w0 w1).extractLsb' 32 32 = w0 := by
  rw [joinWords]
  ext i hi
  simp [show 32 + i < 64 by omega, BitVec.getLsbD_eq_getElem hi]

@[simp] theorem extractLsb'_joinWords_low (w0 w1 : Word) : (joinWords w0 w1).extractLsb' 0 32 = w1 := by
  rw [joinWords]
  ext i hi
  simp [hi, show i < 64 by omega]

@[simp] theorem cmdOfTable_toNat (cmd : BitVec 64) : cmdOfTable 64 cmd.toNat = cmd := by
  rw [cmdOfTable, Nat.mod_eq_of_lt cmd.isLt, BitVec.ofNat_toNat, BitVec.setWidth_eq]

/-- The bytes of a command's `cmd` decode to the command (R8, R90). -/
theorem decode_encodeCmd (i : Instr) (rest : List Byte) : decode (cmdBytes (encodeCmd i) ++ rest) = .ok i := by
  rw [decode_cmdBytes, encodeCmd, extractLsb'_joinWords_high, extractLsb'_joinWords_low, decodeEntry_encode]

namespace Machine

/-- A byte placed among others reads back. -/
theorem Memory.byte_writeBytes (m : Memory) (loc : Nat) {bs : List Byte} {k : Nat} {b : Byte} (h : bs[k]? = some b) :
    Memory.byte (Memory.writeBytes m loc bs) (loc + k) = b :=
  Memory.byte_of_read? _ _ _ (Memory.read?_writeBytes m loc bs k b h)

theorem Memory.entryBytes_eq_map_range (m : Memory) (loc : Nat) :
    Memory.entryBytes m loc = (List.range 8).map fun k => Memory.byte m (loc + k) := rfl

/-- The entry at a location where an entry and more was placed is that entry (R66). -/
theorem Memory.entryBytes_writeBytes_cmdBytes (m : Memory) (loc : Nat) (cmd : BitVec 64) (rest : List Byte) :
    Memory.entryBytes (Memory.writeBytes m loc (cmdBytes cmd ++ rest)) loc = cmdBytes cmd := by
  have hbyte : ∀ k (hk : k < 8), Memory.byte (Memory.writeBytes m loc (cmdBytes cmd ++ rest)) (loc + k) =
      (cmdBytes cmd)[k]'hk := fun k hk =>
    Memory.byte_writeBytes m loc (by rw [List.getElem?_append_left hk, List.getElem?_eq_getElem hk])
  refine List.ext_getElem rfl fun k hk _ => ?_
  simp only [Memory.entryBytes_eq_map_range, List.getElem_map, List.getElem_range]
  exact hbyte k hk

/-! The load of a command -/

@[simp] theorem State.withFetchWord_mem (s : State) (cmd : BitVec 64) :
    (s.withFetchWord 64 cmd.toNat).mem =
      Memory.writeBytes s.mem s.fetchFrame.entryLoc (cmdBytes cmd ++ List.replicate 16 0#8) := by
  rw [State.withFetchWord, cmdOfTable_toNat, State.placeEntry]

@[simp] theorem State.withFetchWord_stack (s : State) (nbits w : Nat) :
    (s.withFetchWord nbits w).stack = s.fetchFrame :: s.stack.tail := rfl

@[simp] theorem State.withFetchWord_params (s : State) (nbits w : Nat) :
    (s.withFetchWord nbits w).params = s.params := rfl

/-- The frame that the load leaves on top can fetch. -/
theorem State.fetchFrame_cursor_lt {s : State} (hcap : 0 < s.params.iterCap) :
    s.fetchFrame.cursor < s.params.iterCap := by
  unfold State.fetchFrame
  split
  · exact hcap
  · split
    · exact hcap
    · omega

/-- The step after an entry is loaded fetches that entry (notes/assumptions/1.md). -/
theorem State.fetch_withFetchWord (s : State) (cmd : BitVec 64) :
    (s.withFetchWord 64 cmd.toNat).fetch s.fetchFrame = decode (cmdBytes cmd) := by
  rw [State.fetch, State.withFetchWord_mem, Memory.entryBytes_writeBytes_cmdBytes]

end Machine

end Sys2Proof
end

section
/-! SUPPORT. The invariant's clauses on tiles, where every descriptor is zeroed (R33, R300). -/

namespace Sys2Proof.Machine

/-- Tiles all zeroed, with no legacy texture, meet the invariant's clauses on tiles (R30, R32, R33, R38). -/
theorem State.tilesOk_of_zero {s : State} (hzero : ∀ k : Fin 8, s.tileAt k = Tile.zero) (hlegacy : s.legacyTex = none) :
    s.TilesOk where
  legacy_eq := by rw [hlegacy, hzero]; rfl
  sizes k := by rw [hzero]; simp [Tile.zero, sizeInRange]
  handles := s.held_nodup_iff.mpr fun j _ _ hj => by rw [hzero] at hj; exact nomatch hj

end Sys2Proof.Machine
end

section
/-! The load of a command (notes/assumptions/1.md) and the invariant of the reset state
(spec/70_reset_and_hazards.md section 1), settled. -/

namespace Sys2Proof.Machine

/-- Settles O28: the load leaves on top a frame below the cap, whose entry is the command loaded. -/
theorem loadedCommandIsTheNextToRun : Obligations.LoadedCommandIsTheNextToRun := by
  intro s i hcap
  have hfetch : (s.withFetchWord 64 (encodeCmd i).toNat).fetch s.fetchFrame = .ok i := by
    rw [State.fetch_withFetchWord, ← List.append_nil (cmdBytes _), decode_encodeCmd]
  exact step_of_fetch_ok (s.withFetchWord_stack _ _) (State.fetchFrame_cursor_lt hcap) hfetch

/-- Settles O19: the matrices by O20, the tiles by O25, and an empty stack, memory and queue. -/
theorem resetMeetsTheInvariant : Obligations.ResetMeetsTheInvariant := by
  obtain ⟨hmvp, -⟩ := mvpIsAlwaysTheProduct
  obtain ⟨-, -, -, -, -, htile, hlegacy, -⟩ := resetHoldsTheStatedValues
  obtain ⟨hlegacy_eq, hsizes, hhandles⟩ := State.tilesOk_of_zero htile hlegacy
  exact {
    mvp_eq := hmvp
    legacy_eq := hlegacy_eq
    stack_le := Nat.zero_le _
    top_open := topOpen_nil
    sizes := hsizes
    handles := hhandles
    stride := by decide
    mem_wf := reset_mem_wf
    requests_wf := fun _ hp => nomatch hp
    params_wf := by decide }

end Sys2Proof.Machine
end
